-- ==== Sys2Proof/Word.lean ====
section
/-! DEFINITION. The word types of the Hadcel 7340 model and their plainest arithmetic: bytes, 48-bit identifiers, the model's
clock, counters that saturate, and one fixed-length table type. Everything a test could show wrong stands in Sys2Proof/Machine. -/

namespace Sys2Proof

/-- One byte of a frame, of the settings image or of block memory (Frame and Image Formats). A station number is one byte. -/
abbrev Byte := BitVec 8

/-- A 48-bit identifier (R7). -/
abbrev Ident := BitVec 48

/-- A moment or a duration, counted in units of 100 ns, the coarsest unit in which every duration the manual gives is whole
(a trunk bit of 0.5 µs, a star byte of 0.8 µs, a star gap of 9.6 µs). -/
abbrev Time := Nat

/-- A block number, 0 to 255 (R55). -/
abbrev BlockNo := Fin 256

/-- A star port; port p of the manual (1 to 6) is `p - 1` here. -/
abbrev PortId := Fin 6

/-- An index of the alias table, 0 to 31 (R107). -/
abbrev EntryNo := Fin 32

/-- An index of the peer roster, 0 to 15 (R128). -/
abbrev RosterNo := Fin 16

/-- A job slot, 0 to 11 (R134). -/
abbrev Slot := Fin 12

/-- The largest value of the manual's 0 to 65,535 counters. -/
def top16 : Nat := 65535

/-- One more, stopping at `top`: "saturating". -/
def satUp (top n : Nat) : Nat := if n < top then n + 1 else top

/-- The saturating step of a 0 to 65,535 counter. -/
def bump (n : Nat) : Nat := satUp top16 n

/-- A fixed set of counters. -/
abbrev Tally (n : Nat) := Vector Nat n

/-- A tally with every counter 0. -/
def Tally.zero (n : Nat) : Tally n := Vector.replicate n 0

/-- A tally with counter `i` raised by one, saturating at 65,535. -/
def Tally.raise {n : Nat} (t : Tally n) (i : Fin n) : Tally n := t.set i (bump t[i])

/-- A table with every item replaced by its image. -/
def mapTable {α β : Type} {n : Nat} (f : α → β) (v : Vector α n) : Vector β n :=
  ⟨⟨v.toList.map f⟩, by simp⟩

/-- The pair of things the junction has one of for each coax side. -/
structure Sides (α : Type) where
  west : α
  east : α
deriving DecidableEq, Repr

end Sys2Proof
end

