-- ==== Sys2Proof/Config.lean ====
section
/-! DEFINITION. What the manual fixes once: durations (in the clock's units of 100 ns), capacities and limits; and the
values it leaves open, as free constants. -/

namespace Sys2Proof.Config

/-- One microsecond. -/
def us : Time := 10
/-- One millisecond. -/
def ms : Time := 10000
/-- One second. -/
def sec : Time := 10000000

/-- A trunk byte: 8 bits of 0.5 µs (Trunk Access). -/
def trunkByte : Time := 4 * us
/-- A slot of 128 trunk bits, which is also the ack window (R19, R23). -/
def slot : Time := 64 * us
/-- The quiet gap (R19). -/
def quietGap : Time := 32 * us
/-- The jam of 32 bits (R21). -/
def jam : Time := 16 * us
/-- The busy wait of 16 slots after a NAK BUSY (R24). -/
def busyWait : Time := 16 * slot
/-- The jabber limit of 2.5 ms (R30). -/
def jabber : Time := 2500 * us
/-- A star byte of 0.8 µs (Star Links). -/
def starByte : Time := 8
/-- The gap of 12 star byte times between frames sent on a port (R52). -/
def starGap : Time := 96
/-- The retire test lasts 64 µs (R172). -/
def retireTest : Time := 64 * us
/-- The scrubber reads one word every 64 µs (R176). -/
def scrubPeriod : Time := 64 * us
/-- The move window (R73). -/
def moveWindow : Time := 10 * sec
/-- A recent-broadcasts entry stands for 2 s (R95). -/
def broadcastMemory : Time := 2 * sec
/-- The time between the CLAIMs of a probe (R114). -/
def claimStep : Time := 250 * ms
/-- The probe time at which an entry binds (R114). -/
def probeLength : Time := 750 * ms
/-- The wait of a FAILED entry (R118). -/
def failedRetry : Time := 30 * sec
/-- A finished job record stays 30 s (R134). -/
def finishedStay : Time := 30 * sec
/-- The byte timer (R133). -/
def byteTimer : Time := 10 * sec
/-- The INIT pulse (R132). -/
def initPulse : Time := 100 * us
/-- The absent watch (R131). -/
def absentWatch : Time := 5 * sec
/-- The health window of a side and of a star port (R153, R163). -/
def window : Time := sec
/-- The loop hold (R155). -/
def loopHold : Time := 600 * sec
/-- The loop watch, and the interval within which a peer is double-heard (R160). -/
def loopWatch : Time := 2 * sec
/-- An isolation within this time of the last restore raises k (R164). -/
def isolationMemory : Time := 60 * sec
/-- The two waits of a RESTART (R184). -/
def restartStep : Time := 250 * ms
/-- The RUN lamp's half period in RELAY-ONLY (R185). -/
def lampFlash : Time := 500 * ms

/-- Capacity of a side transmit queue (R18). -/
def sideQueue : Nat := 32
/-- Capacity of a star transmit queue (R51). -/
def starQueue : Nat := 16
/-- Capacity of the recent-receipts and recent-transmissions lists (R34, R35). -/
def recentList : Nat := 16
/-- Capacity of the recent-broadcasts list (R95). -/
def broadcastList : Nat := 32
/-- Capacity of a node list (R47). -/
def nodeList : Nat := 6
/-- Capacity of the retired list (R63). -/
def retiredList : Nat := 64
/-- Capacity of the list of waiting retire tests (R172). -/
def waitingTests : Nat := 8
/-- Capacity of the avoid list (R118). -/
def avoidList : Nat := 16
/-- Capacity of the loop watch list (R160). -/
def watchList : Nat := 16
/-- Moves in a window that quarantine a record (R73). -/
def quarantineMoves : Nat := 5
/-- Collisions that end a record (R21). -/
def collisionLimit : Nat := 12
/-- Ack misses that end a record (R25). -/
def ackLimit : Nat := 4
/-- NAK BUSY answers that end a record (R24). -/
def busyLimit : Nat := 6
/-- Candidates that make an entry FAILED (R118). -/
def candidateLimit : Nat := 16
/-- Entries that may be PROBING together (R112). -/
def probersLimit : Nat := 2
/-- Words of the six protected stores (R169). -/
def scrubWords : Nat := 9752

/-- Whether word offset `w` (0 to 3) of a roster entry holds part of the peer's junction identifier. R175 distinguishes those
words; the manual does not lay the entry out, so this is a free constant of the model (log entry 9). -/
opaque rosterIdentWord : Nat → Bool

/-- The fields of a job record that R175 leaves unstated when it rewrites an uncorrectable record as DAMAGED: at a moment, field
number k (0 copies, 1 separator flag, 2 next index, 3 bytes printed, 4 copies left, 5 open time, 6 last activity, 7 length of the
name). A free value, brought within R134's range where it is used (log entry 10). -/
opaque lostJobField : Time → Nat → Nat

/-- Whether, at a moment at which pool recovery is ordered, the read of a block's record had begun before the notice of recovery
reached its reader (R65). The manual does not time those reads, so this is a free constant of the model (log entry 18). -/
opaque readBegun : Time → Nat → Bool

/-- The bytes of the job name that R175 leaves unstated in the same rewrite, by place. A free value (log entry 10). -/
opaque lostJobName : Time → Nat → Byte

end Sys2Proof.Config
end

