-- ==== Sys2Proof/Syntax.lean ====
section
/-! DEFINITION. The commands of the Hadcel 7340: one constructor of `Instr` for each row of spec/opcode_table.json. The part is a
block, not a processor: a row is an operation or an event that reaches it (a burst, a timer expiry, a printer line, an inspection
request), and its operands say where and with what. -/

namespace Sys2Proof

/-- The two coax sides. -/
inductive Side where
  | west
  | east
deriving DecidableEq, Repr

/-- Where bytes arrive: a coax side or a star port. -/
inductive Inlet where
  | trunk (x : Side)
  | star (p : PortId)
deriving DecidableEq, Repr

/-- The six protected stores, in the order of R169. -/
inductive Store where
  | blockMemory
  | blockRecords
  | directory
  | aliasTable
  | roster
  | jobRecords
deriving DecidableEq, Repr

/-- The location of a protected word: store, index in the store, word offset within the item (R169). -/
structure WordLoc where
  store : Store
  index : Nat
  offset : Nat
deriving DecidableEq, Repr

/-- What is wrong with a word: one wrong bit, which the code corrects, or an error it cannot correct, which it finds with a 7-bit
syndrome (R170, R171). -/
inductive Damage where
  | single
  | uncorrectable (syndrome : BitVec 7)
deriving DecidableEq, Repr

/-- A fault of the memory cells that has come about since the last event. The manual says how such a fault is met and not how it
arises, so it comes from outside, with the event before which it struck (log entry 3). -/
structure Upset where
  loc : WordLoc
  damage : Damage
deriving DecidableEq, Repr

/-- What every command carries: the moment it is taken, and the memory upsets that came before it. -/
structure Moment where
  time : Time
  upsets : List Upset
deriving DecidableEq, Repr

/-- The levels of the printer's five input lines, true for high (R131). -/
structure PrinterLines where
  ack : Bool
  busy : Bool
  paperOut : Bool
  select : Bool
  fault : Bool
deriving DecidableEq, Repr

/-- The verdict of the retire test's read-back (R172). -/
inductive ReadBack where
  | sound
  | corrected
  | uncorrectable
deriving DecidableEq, Repr

/-- The commands, in the order of spec/opcode_table.json. -/
inductive Instr where
  /-- Power-on or assertion of RESET (R177). -/
  | fullReset (e : Moment)
  /-- Release of RESET, or settled power (R177). -/
  | resetRelease (e : Moment)
  /-- The EEPROM read ends; `image` is the bytes it acknowledged, 64 when the read was whole (R177, R178). -/
  | settingsLoadEnd (e : Moment) (image : List Byte)
  /-- A half period of the flashing RUN lamp ends (R185). -/
  | runLampFlash (e : Moment)
  /-- The oldest waiting INSPECT-REQ is a READ (R181). -/
  | read (e : Moment)
  /-- The oldest waiting INSPECT-REQ is a READ-CLEAR (R181). -/
  | readClear (e : Moment)
  /-- The oldest waiting INSPECT-REQ is the RESTORE-SIDE command (R158, R183). -/
  | restoreSide (e : Moment)
  /-- The oldest waiting INSPECT-REQ is the PARTITION-SIDE command (R158, R183). -/
  | partitionSide (e : Moment)
  /-- The oldest waiting INSPECT-REQ is the RELEASE-PORT command (R165, R183). -/
  | releasePort (e : Moment)
  /-- The oldest waiting INSPECT-REQ is the CANCEL-JOB command (R141, R183). -/
  | cancelJob (e : Moment)
  /-- The oldest waiting INSPECT-REQ is the RESTART command (R183). -/
  | restart (e : Moment)
  /-- 250 ms after RESTART (R184). -/
  | restartReleases (e : Moment)
  /-- 250 ms after the releases (R184). -/
  | restartExecute (e : Moment)
  /-- Carrier appears on a side while its unit is not sending (R30). -/
  | carrierOn (e : Moment) (x : Side)
  /-- The first six bytes of a trunk burst have arrived (R31). -/
  | headerStaged (e : Moment) (x : Side) (bytes : List Byte)
  /-- Bytes arrive, the last with the block in hand full (R58). -/
  | blockRequest (e : Moment) (i : Inlet) (bytes : List Byte)
  /-- Bytes arrive, the last being the 521st of a trunk burst (R31). -/
  | trunkOverlongByte (e : Moment) (x : Side) (bytes : List Byte)
  /-- Carrier has run unbroken for 2.5 ms (R30). -/
  | jabber (e : Moment) (x : Side)
  /-- Carrier ends; `bytes` arrived since the last event of the burst (R32). -/
  | burstEnd (e : Moment) (x : Side) (bytes : List Byte)
  /-- 32 µs of absent carrier have passed (R19). -/
  | quietGapEnd (e : Moment) (x : Side)
  /-- An answer is sent whole (R28). -/
  | answerEnd (e : Moment) (x : Side)
  /-- An attempt begins (R19, R20). -/
  | attemptBegin (e : Moment) (x : Side)
  /-- The last bit of an attempt is sent (R20). -/
  | attemptSentWhole (e : Moment) (x : Side)
  /-- The transceiver reports a collision (R21, R28). -/
  | collision (e : Moment) (x : Side)
  /-- The jam ends (R21). -/
  | jamEnd (e : Moment) (x : Side)
  /-- The backoff wait ends (R22). -/
  | backoffWaitEnd (e : Moment) (x : Side)
  /-- The busy wait ends (R24). -/
  | busyWaitEnd (e : Moment) (x : Side)
  /-- The ack window ends with no burst begun in it (R25). -/
  | ackWindowEnd (e : Moment) (x : Side)
  /-- An uncorrectable word is met while sending a trunk chain (R27). -/
  | trunkSendUncorrectable (e : Moment) (x : Side)
  /-- The transceiver's LINE-FAULT input takes a level; true is its assertion (R36). -/
  | lineFault (e : Moment) (x : Side) (level : Bool)
  /-- Link presence is reported on a port (R42, R44). -/
  | linkPresent (e : Moment) (p : PortId)
  /-- Link presence is lost on a port (R42, R43). -/
  | linkLost (e : Moment) (p : PortId)
  /-- The first 16 bytes of a star frame have arrived (R45). -/
  | starHeaderStaged (e : Moment) (p : PortId) (bytes : List Byte)
  /-- Bytes arrive, the last being the 1,521st of a star frame (R45). -/
  | starOverlongByte (e : Moment) (p : PortId) (bytes : List Byte)
  /-- A star frame ends; `bytes` arrived since its last event (R46). -/
  | starFrameEnd (e : Moment) (p : PortId) (bytes : List Byte)
  /-- A node of a port has not been heard for a full node age (R49). -/
  | nodeAgeExpiry (e : Moment) (p : PortId) (node : Ident)
  /-- A port begins sending its head record (R52). -/
  | starSendStart (e : Moment) (p : PortId)
  /-- The last byte of a star frame leaves the port (R52). -/
  | starFrameSent (e : Moment) (p : PortId)
  /-- An uncorrectable word is met while sending a star chain (R52). -/
  | starSendUncorrectable (e : Moment) (p : PortId)
  /-- 64 µs after a retire test began; the read-back has this verdict (R172). -/
  | retireTestEnd (e : Moment) (verdict : ReadBack)
  /-- The last block record is rewritten (R64). -/
  | poolRecoveryEnd (e : Moment)
  /-- A LEGACY record has not been heard for a full directory age (R75). -/
  | directoryAgeExpiry (e : Moment) (n : Byte)
  /-- A record's quarantine ends (R74, R76). -/
  | quarantineExpiry (e : Moment) (n : Byte)
  /-- The oldest recent-broadcasts entry reaches 2 s (R95). -/
  | broadcastEntryExpiry (e : Moment)
  /-- The head of the claim queue begins a claim (R112). -/
  | claimBegin (e : Moment)
  /-- A further CLAIM of an entry falls due (R114). -/
  | claimDue (e : Moment) (i : EntryNo)
  /-- An entry reaches probe time 750 ms (R114). -/
  | aliasBind (e : Moment) (i : EntryNo)
  /-- A FAILED entry reaches its failed-retry time (R118). -/
  | failedRetry (e : Moment) (i : EntryNo)
  /-- A HELD entry's alias hold expires (R124). -/
  | holdExpiry (e : Moment) (i : EntryNo)
  /-- The announce timer expires (R126). -/
  | announceTimerExpiry (e : Moment)
  /-- A roster entry has not been heard within three announce periods (R128). -/
  | rosterExpiry (e : Moment) (j : RosterNo)
  /-- A RECEIVING job has been idle for the job idle time (R144). -/
  | jobIdleExpiry (e : Moment) (k : Slot)
  /-- 30 s after a job finished (R134). -/
  | slotExpiry (e : Moment) (k : Slot)
  /-- The printer's input lines take these levels (R131). -/
  | printerLineChange (e : Moment) (lines : PrinterLines)
  /-- The absent watch ends (R131). -/
  | absentWatchEnd (e : Moment)
  /-- The 100 µs INIT pulse ends (R132). -/
  | initPulseEnd (e : Moment)
  /-- The PRINTING job's next byte, or a separator, is presented (R133). -/
  | bytePresent (e : Moment)
  /-- The printer's ACKNOWLEDGE arrives (R133). -/
  | acknowledge (e : Moment)
  /-- The byte timer runs out (R133). -/
  | byteTimerExpiry (e : Moment)
  /-- The head job begins printing (R145). -/
  | jobBegin (e : Moment)
  /-- A side's health window ends (R153). -/
  | sideWindowEnd (e : Moment) (x : Side)
  /-- A side's loop hold expires (R157). -/
  | loopHoldExpiry (e : Moment) (x : Side)
  /-- A peer's loop watch expires (R160). -/
  | loopWatchExpiry (e : Moment) (peer : Ident)
  /-- The assessment interval ends (R162). -/
  | loopAssessmentEnd (e : Moment)
  /-- A star port's window ends (R163). -/
  | starWindowEnd (e : Moment) (p : PortId)
  /-- A port's star hold ends (R165). -/
  | starHoldExpiry (e : Moment) (p : PortId)
  /-- The scrubber reads the word at the scrub position (R176). -/
  | scrubRead (e : Moment)
deriving DecidableEq, Repr

/-- The moment a command carries. -/
def Instr.moment : Instr → Moment
  | .fullReset e | .resetRelease e | .settingsLoadEnd e _ | .runLampFlash e | .read e | .readClear e | .restoreSide e
  | .partitionSide e | .releasePort e | .cancelJob e | .restart e | .restartReleases e | .restartExecute e
  | .carrierOn e _ | .headerStaged e _ _ | .blockRequest e _ _ | .trunkOverlongByte e _ _ | .jabber e _
  | .burstEnd e _ _ | .quietGapEnd e _ | .answerEnd e _ | .attemptBegin e _ | .attemptSentWhole e _ | .collision e _
  | .jamEnd e _ | .backoffWaitEnd e _ | .busyWaitEnd e _ | .ackWindowEnd e _ | .trunkSendUncorrectable e _
  | .lineFault e _ _ | .linkPresent e _ | .linkLost e _ | .starHeaderStaged e _ _ | .starOverlongByte e _ _
  | .starFrameEnd e _ _ | .nodeAgeExpiry e _ _ | .starSendStart e _ | .starFrameSent e _ | .starSendUncorrectable e _
  | .retireTestEnd e _ | .poolRecoveryEnd e | .directoryAgeExpiry e _ | .quarantineExpiry e _ | .broadcastEntryExpiry e
  | .claimBegin e | .claimDue e _ | .aliasBind e _ | .failedRetry e _ | .holdExpiry e _ | .announceTimerExpiry e
  | .rosterExpiry e _ | .jobIdleExpiry e _ | .slotExpiry e _ | .printerLineChange e _ | .absentWatchEnd e
  | .initPulseEnd e | .bytePresent e | .acknowledge e | .byteTimerExpiry e | .jobBegin e | .sideWindowEnd e _
  | .loopHoldExpiry e _ | .loopWatchExpiry e _ | .loopAssessmentEnd e | .starWindowEnd e _ | .starHoldExpiry e _
  | .scrubRead e => e

end Sys2Proof
end

