-- ==== Sys2Proof/Machine/Types.lean ====
section
/-! DEFINITION. The types that State is made of, block by block as the manual's block overview lists them: plain data, no function
types. Field comments name the rule that gives the field; "model's own" marks a field that holds what a rule needs and the manual
does not name as an item. -/

namespace Sys2Proof.Machine

/-! ### Frames -/

/-- The six-byte trunk header (R1). -/
structure TrunkHeader where
  dest : Byte
  src : Byte
  kind : Byte
  seq : Byte
  len : BitVec 16
deriving DecidableEq, Repr

/-- The sixteen-byte star header (R6). -/
structure StarHeader where
  dest : Ident
  src : Ident
  kind : Byte
  seq : Byte
  len : BitVec 16
deriving DecidableEq, Repr

/-- Whether a chain begins with a trunk or a star header (R87). -/
inductive Form where
  | trunk
  | star
deriving DecidableEq, Repr

/-- The class a received burst or star frame is given (R5, R6, R30). -/
inductive BurstClass where
  | good
  | checkError
  | runt
  | overlong
  | jabber
deriving DecidableEq, Repr

/-- The decode outcomes (R81 to R83), with what each names. -/
inductive Decode where
  | malformed
  | reserved
  | quarantine
  | broadcast
  /-- LOCAL, naming an alias entry and the location of its record: `none` is LOCAL, `some k` a star port. -/
  | entry (i : EntryNo) (loc : Option PortId)
  /-- LOCAL, the junction itself (R82). -/
  | junction
  /-- LOCAL, the printer (R82). -/
  | printer
  | filter
  /-- RELAY to a side, for a station number. -/
  | relay (y : Side) (n : Byte)
  | unreachable
  /-- FLOOD, for a station number. -/
  | flood (n : Byte)
  | noPath
  | switchTo (j : PortId)
  | unresolved
deriving DecidableEq, Repr

/-- Where a frame came from: the ingress tags of R55, which are also the origins of R87 and the locations of R69. -/
inductive Origin where
  | side (x : Side)
  | star (p : PortId)
  | internal
deriving DecidableEq, Repr

/-! ### Transmit records (R87) -/

/-- CONTROL or ORDINARY (R18). -/
inductive QueueClass where
  | control
  | ordinary
deriving DecidableEq, Repr

/-- Where a record stands in its life on a trunk side (model's own: R19 to R25 tell these moments apart). A star record stays
`due`. -/
inductive RecordPhase where
  /-- Due: new, or its wait has ended (R19). -/
  | due
  /-- Its attempt is being sent (R20). -/
  | sending
  /-- Due once its ack window has ended, after an ack miss (R25). -/
  | missed
  /-- Sent whole; its ack window opened at this moment, and whether a burst has begun in it (R23). -/
  | awaiting (opened : Time) (burstBegun : Bool)
  /-- The backoff wait of this many slots begins at the next quiet gap's end (R21). -/
  | backoffDue (slots : Nat)
  /-- The backoff wait ends at this moment (R21, R22). -/
  | backoff (ends : Time)
  /-- The busy wait ends at this moment (R24). -/
  | busy (ends : Time)
  /-- Its attempt collided on a PARTITIONING side: FLUSHED after the jam (R38). -/
  | flushAfterJam
deriving DecidableEq, Repr

/-- A transmit record; `Addr` is a station number on a trunk side and an identifier on a star port. -/
structure TransmitRecord (Addr : Type) where
  head : BlockNo
  blocks : Nat
  form : Form
  asStored : Bool
  length : Nat
  /-- The payload length L that the header is formed with and the payload is read by (R52, R87). -/
  payload : Nat
  dest : Addr
  src : Addr
  kind : Byte
  seq : Byte
  origin : Origin
  cls : QueueClass
  proxyAcked : Bool
  collisions : Nat
  ackMisses : Nat
  busyCount : Nat
  /-- Whether its first attempt has begun, so that it is current (R18). -/
  begun : Bool
  phase : RecordPhase
deriving DecidableEq, Repr

abbrev TrunkRecord := TransmitRecord Byte
abbrev StarRecord := TransmitRecord Ident

/-! ### Trunk Access Units (chapter 2) -/

/-- A chain being built or held for a frame: its first and last block and its block count (R55). -/
structure Chain where
  first : BlockNo
  last : BlockNo
  count : Nat
deriving DecidableEq, Repr

/-- How a burst or star frame under way is received. -/
inductive RxMode where
  /-- Received in full (R31, R45). -/
  | full
  /-- Classified and counted only: a burst on a PARTITIONED side (R39), a frame on an ISOLATED port (R46), or a reception ended
  for forwarding by pool recovery (R40, R54). -/
  | countOnly
  /-- Ignored to its end: begun while LOADING (R17), or before the port became UP (R44). -/
  | ignored
deriving DecidableEq, Repr

/-- The reception under way. `bytes` is every byte received so far, oldest first (model's own: what the check and the length tests
of R5 are computed from). -/
structure Reception where
  began : Time
  mode : RxMode
  bytes : List Byte
  decode : Option Decode
  /-- Marked duplicate (R35). -/
  duplicate : Bool
  /-- Marked OVERRUN (R31, R45). -/
  overrun : Bool
  /-- The blocks taken (R31, R45). -/
  chain : Option Chain
  /-- Already given the class JABBER (R30). -/
  jabber : Bool
  /-- Begun inside an ack window (R32). -/
  inAckWindow : Bool
  /-- The first burst begun inside the head record's ack window (R23). -/
  settles : Bool
deriving DecidableEq, Repr

/-- What a unit is putting on its line. The bytes stand in `lineOut`. -/
inductive Sending where
  | silent
  | attempt (began : Time)
  /-- The inverted check of a frame ended early is going out until this moment; `sent` frame bytes went before it (R27, R40). -/
  | cutCheck (sent : Nat) (ends : Time)
  | answer (isAck : Bool) (began : Time)
  | jam (began : Time)
  /-- The jam that a collision puts in place of an inverted check (R27). -/
  | cutJam (began : Time)
deriving DecidableEq, Repr

/-- An answer decided and not yet begun (R28); `nak` is its NAK reason code, absent for an ACK. -/
structure Answer where
  dest : Byte
  src : Byte
  seq : Byte
  nak : Option Byte
deriving DecidableEq, Repr

/-- The eight window counts of a side (R36). -/
structure WindowCounts where
  ce : Nat
  ru : Nat
  lc : Nat
  jb : Nat
  am : Nat
  tx : Nat
  co : Nat
  lf : Bool
deriving DecidableEq, Repr

/-- The side totals, in the order of R37. -/
inductive SideTotal where
  | good | checkErrors | runts | fragments | overlong | jabbers | overruns
  | attempts | collisions | lateCollisions | ackMisses
  | acksSent | naksSent | answerCollisions
deriving DecidableEq, Repr

/-- A Trunk Access Unit (section 2.1). -/
structure TrunkUnit where
  queue : List TrunkRecord
  staging : Option TrunkHeader
  /-- The burst under way: carrier that appeared while the unit was not sending (R30). -/
  rx : Option Reception
  /-- The collision counter C. -/
  c : BitVec 8
  window : WindowCounts
  totals : Tally 14
  sending : Sending
  /-- The bytes of the attempt or answer last put on the line (model's own: what leaves the part). -/
  lineOut : List Byte
  /-- Carrier of another station that appeared while the unit was sending, and has not ended: no burst (R21, R30). -/
  otherCarrier : Bool
  /-- Since when carrier has been absent and the unit silent (R19). -/
  idleSince : Option Time
  /-- Whether the quiet gap has passed since then (R19). -/
  quiet : Bool
  /-- The end of the reservation that follows the last burst staged as a directed frame (R19). -/
  reservedUntil : Time
  /-- The end of the ack window that follows the last directed frame heard, that is, received GOOD (R32). -/
  heardUntil : Time
  /-- The end of the ack window of the last directed frame the unit sent whole itself (R23, R25, R32). -/
  ownWindowUntil : Time
  answer : Option Answer
deriving DecidableEq, Repr

/-- An entry of the recent-receipts list (R35). -/
structure Receipt where
  src : Byte
  dest : Byte
  seq : Byte
deriving DecidableEq, Repr

/-- An entry of the recent-transmissions list (R34). -/
structure Transmission where
  src : Byte
  seq : Byte
  kind : Byte
  side : Side
deriving DecidableEq, Repr

/-! ### Star Port Units (chapter 3), with the Health Monitor's items per port (chapter 9) -/

inductive PortState where
  | disabled
  | down
  | up
  | isolated
deriving DecidableEq, Repr

/-- A node list entry (section 3.1). -/
structure Node where
  ident : Ident
  lastHeard : Time
  entry : Option EntryNo
deriving DecidableEq, Repr

/-- The port totals, in the order of R53. -/
inductive PortTotal where
  | good | broadcasts | checkErrors | runts | overlong | overruns
  | cut | isolatedDiscards
  | sourceClash | nodeFull
  | sent | flushed | damaged
deriving DecidableEq, Repr

/-- The window counts of a port (R53). -/
structure PortCounts where
  ce : Nat
  bc : Nat
  ov : Nat
deriving DecidableEq, Repr

/-- A port's last leaving of UP, kept while a frame that was coming then in its first bytes, no command having carried any of them,
may still be reported, to be counted by R43 (model's own). -/
structure LeftUp where
  /-- When the port had become UP. -/
  since : Time
  /-- When it left UP. -/
  left : Time
  /-- Whether the cause was isolation. -/
  isolated : Bool
deriving DecidableEq, Repr

structure Port where
  state : PortState
  nodes : List Node
  queue : List StarRecord
  staging : Option StarHeader
  rx : Option Reception
  window : PortCounts
  totals : Tally 13
  k : Nat
  lastRestore : Option Time
  /-- When the frame being sent began, if one is being sent (R52). -/
  sending : Option Time
  /-- The bytes of the frame last put on the port (model's own: what leaves the part). -/
  lineOut : List Byte
  /-- When the previous frame sent on the port ended (R52). -/
  lastSent : Option Time
  /-- A frame whose first byte arrived before this moment is not received (R43, R44). -/
  ignoreBefore : Time
  /-- A frame whose first byte arrived before this moment is received for its class alone (R54). -/
  countBefore : Time
  /-- The last leaving of UP, while a frame it ended may still be to be counted (R43; model's own). -/
  leftUp : Option LeftUp
  /-- The star window timer's next expiry (R163). -/
  windowEnd : Option Time
  /-- The star hold timer's expiry (R164). -/
  holdEnd : Option Time
  /-- The isolations counter (R167). -/
  isolations : Nat
deriving DecidableEq, Repr

/-! ### Buffer Pool (chapter 4) -/

inductive BlockClass where
  | free
  | forwarding
  | spool
  | retired
deriving DecidableEq, Repr

/-- The tag of a block record: an ingress tag, or a job slot (R55). -/
inductive BlockTag where
  | ingress (o : Origin)
  | slot (k : Slot)
deriving DecidableEq, Repr

/-- A block record (R55). -/
structure BlockRecord where
  cls : BlockClass
  next : Option BlockNo
  endMark : Bool
  tag : Option BlockTag
deriving DecidableEq, Repr

/-- The pool counters, in the order of R67. -/
inductive PoolCount where
  | noFree | forwardCap | quota | reclass | retireOverflows | recoveries
deriving DecidableEq, Repr

structure Pool where
  records : Vector BlockRecord 256
  head : Option BlockNo
  tail : Option BlockNo
  free : Nat
  forwardingHeld : Nat
  spoolHeld : Nat
  retiredCount : Nat
  /-- The held counts, by ingress tag in the order of R55. -/
  held : Vector Nat 9
  retired : List BlockNo
  counters : Tally 6
  /-- Whether pool recovery is under way (R64). -/
  recovering : Bool
deriving DecidableEq, Repr

/-! ### Station Directory (chapter 5) -/

/-- The kind of a record, with its location and the fields that kind has (R69). -/
inductive Holder where
  | legacy (loc : Side)
  | remote (loc : Side) (ident peer : Ident)
  /-- OWN-ALIAS; location `none` is LOCAL, `some k` a star port. -/
  | own (loc : Option PortId) (ident : Ident) (index : EntryNo)
deriving DecidableEq, Repr

/-- A present directory record (R69). -/
structure DirRecord where
  holder : Holder
  lastHeard : Time
  moves : Nat
  windowStart : Option Time
  quarantine : Option Time
deriving DecidableEq, Repr

/-- The directory counters, in the order of R85. -/
inductive DirCount where
  | learned | moves | quarantines | aged | conflictNotices | upkeepWrites | upkeepRemovals | refusedWrites
deriving DecidableEq, Repr

structure Directory where
  /-- The record of each number; those of 0 and 255 are never filled (R68). -/
  records : Vector (Option DirRecord) 256
  counters : Tally 8
deriving DecidableEq, Repr

/-! ### Forwarding Engine (chapter 6) -/

/-- A recent-broadcasts entry (R95). -/
structure BroadcastEntry where
  src : Byte
  seq : Byte
  kind : Byte
  entered : Time
deriving DecidableEq, Repr

/-- The decode counters, in the order of R86. -/
inductive DecodeCount where
  | malformed | reserved | quarantine | broadcast | lent | filter | relay | unreachable | flood | noPath | switched | unresolved
deriving DecidableEq, Repr

/-- The drop counters and re-ACKs, in the order of R86. -/
inductive DropCount where
  | echo | reservedSource | repeated | floodRepeat | noAlias | forbiddenKind | tooLarge | held | placement | copy | localDiscard
  | notBound | reAcks
deriving DecidableEq, Repr

/-- The outcomes of a transmit record, in the order of R86. -/
inductive TxOutcome where
  | delivered | collisionLimit | ackLimit | busyLimit | refused | flushed | damaged
deriving DecidableEq, Repr

/-- The proxy accounting set (R86, R104). -/
structure Proxy where
  acked : BitVec 32
  delivered : BitVec 32
  /-- The loss counters of COLLISION-LIMIT to DAMAGED, in the order of R86. -/
  losses : Vector (BitVec 32) 6
  queued : Nat
deriving DecidableEq, Repr

structure Forwarding where
  broadcasts : List BroadcastEntry
  decodes : Tally 12
  drops : Tally 13
  outcomes : Tally 7
  proxy : Proxy
deriving DecidableEq, Repr

/-! ### Alias Unit (chapter 7) -/

inductive ClientKind where
  | junction
  | printer
  | starNode
deriving DecidableEq, Repr

/-- The probe clock: running from a probe start time, or paused with the probe time kept (R114, R115). -/
inductive ProbeClock where
  | running (start : Time)
  | paused (kept : Time)
deriving DecidableEq, Repr

/-- The state of an alias entry with the number, probe start, hold expiry or failed-retry time that state has (R107). -/
inductive AliasPhase where
  | unbound
  | probing (n : Byte) (clock : ProbeClock)
  | bound (n : Byte)
  | held (n : Byte) (expiry : Time)
  | conflict (n : Byte)
  | failed (retry : Time)
deriving DecidableEq, Repr

/-- An alias entry in use (R107). -/
structure AliasEntry where
  client : ClientKind
  ident : Ident
  port : Option PortId
  phase : AliasPhase
  tried : Nat
  probes : Nat
  /-- How many of the probe's three CLAIMs have fallen due (model's own; R114). -/
  dues : Nat
deriving DecidableEq, Repr

/-- The states of the printer, in the order of their codes (R10). -/
inductive PrinterState where
  | absent | offline | paperOut | fault | busy | ready
deriving DecidableEq, Repr

/-- A roster entry (R128). -/
structure RosterEntry where
  ident : Ident
  number : Byte
  heard : Sides (Option Time)
  seq : Sides (Option Byte)
  looped : Bool
  /-- The printer number, and the printer state's code. -/
  printer : Option (Byte × Byte)
deriving DecidableEq, Repr

/-- The Alias Unit's counters, in the order of R130. -/
inductive LendCount where
  | nodeLimit | binds | probeLosses | tiesWon | tiesLost | failures | defends | conflicts | duplicatesKept | duplicatesLost
  | holds | holdExpiries | nodeReleases | announcesSent | rosterReplacements | notFormed | placementsRefused
deriving DecidableEq, Repr

structure LendUnit where
  table : Vector (Option AliasEntry) 32
  claims : List EntryNo
  avoid : List Byte
  roster : Vector (Option RosterEntry) 16
  announceAt : Option Time
  seq : BitVec 8
  counters : Tally 17
deriving DecidableEq, Repr

/-! ### Print Spool (chapter 8) -/

/-- The job states, in the order of their codes 1 to 7 (R12). -/
inductive JobState where
  | receiving | ready | printing | held | done | cancelled | damaged
deriving DecidableEq, Repr

/-- The reason codes, in the order of R12. -/
inductive Reason where
  | none | noAddress | queueFull | printerAbsent | disabled | tooLarge | evicted | idle | requested | admin | originLost
  | offline | paperOut | fault | stalled | memory | outOfWindow | incomplete | noSuchJob
deriving DecidableEq, Repr

/-- The block chain of a job. `forms` gives the header form of each accepted frame, oldest first (model's own: the tag that told
it is replaced at reclassification, R61). -/
structure JobChain where
  first : BlockNo
  last : BlockNo
  count : Nat
  forms : List Form
deriving DecidableEq, Repr

/-- A job record (R134). -/
structure Job where
  number : Byte
  originator : Option Byte
  name : List Byte
  copies : Nat
  separator : Bool
  state : JobState
  reason : Reason
  nextIndex : Nat
  window : Nat
  chain : Option JobChain
  printed : Nat
  copiesLeft : Nat
  openTime : Time
  lastActivity : Time
  finished : Option Time
deriving DecidableEq, Repr

/-- The byte presented and not yet acknowledged; whether it is a separator, and the slot of its job's record, absent once that record
has left the slot (R133, R141). -/
structure InHand where
  byte : Byte
  separator : Bool
  slot : Option Slot
deriving DecidableEq, Repr

/-- To whom a frame of the Print Spool or the Settings and Inspection Unit goes (R102). -/
inductive Recipient where
  | number (n : Byte)
  | node (p : PortId) (ident : Ident)
deriving DecidableEq, Repr

/-- A PRINT-STATUS to be formed within the event that called for it (model's own; R149). -/
structure Notice where
  dest : Recipient
  payload : List Byte
deriving DecidableEq, Repr

/-- The Print Spool's counters, in the order of R151. -/
inductive SpoolCount where
  | opensAccepted | openRefusals | dataAccepted | dataDiscarded | dataDuplicates | noAddressDiscards | jobsDone | jobsCancelled
  | evictions | idleCancellations | originLosses | jobsDamaged | holds | stalls | notFormed
deriving DecidableEq, Repr

structure PrintSpool where
  jobs : Vector (Option Job) 12
  order : List Slot
  printer : PrinterState
  stall : Bool
  inHand : Option InHand
  /-- The byte timer's expiry (R133). -/
  byteTimer : Option Time
  absentMark : Bool
  /-- The absent watch's end, and whether SELECT has stayed low and BUSY high through it (R131). -/
  absentWatch : Option (Time × Bool)
  /-- An INIT pulse is pending (R132). -/
  initPending : Bool
  /-- When the INIT pulse under way began (R132). -/
  initPulse : Option Time
  /-- Whether an INIT pulse has ended since reset, so that the state is taken from the lines (R134). -/
  linesTaken : Bool
  /-- The separator of the current copy is still to be presented (R146). -/
  separatorDue : Bool
  jobCounter : Byte
  seq : BitVec 8
  counters : Tally 15
  /-- The level of the eight data lines: the byte last presented (R133). -/
  dataLines : Byte
  /-- PRINT-STATUS frames called for and not yet formed (model's own; empty between events in the ordinary course). -/
  outbox : List Notice
deriving DecidableEq, Repr

/-! ### Health Monitor (chapter 9) -/

inductive SideState where
  | joined
  | partitioning
  | partitioned
deriving DecidableEq, Repr

inductive PartitionReason where
  | health
  | loop
  | admin
deriving DecidableEq, Repr

/-- The Health Monitor's items of a side. -/
structure SideHealth where
  score : Nat
  state : SideState
  reason : Option PartitionReason
  cleanRun : Nat
  windowEnd : Option Time
  loopHold : Option Time
  pendingRestore : Bool
  /-- The counts handed at the last window end (R167). -/
  lastWindow : WindowCounts
  partitionsHealth : Nat
  partitionsLoop : Nat
  partitionsAdmin : Nat
  restores : Nat
deriving DecidableEq, Repr

/-- A loop watch (R160). -/
structure LoopWatch where
  peer : Ident
  side : Side
  seq : Byte
  expiry : Time
deriving DecidableEq, Repr

structure Health where
  sides : Sides SideHealth
  /-- The loop assessment: absent is IDLE, a time is OPEN with that end (R161). -/
  assessment : Option Time
  ownLooped : Bool
  watches : List LoopWatch
  assessments : Nat
  loopBreaks : Nat
deriving DecidableEq, Repr

/-! ### Check Unit (chapter 10) -/

/-- Who was reading when an uncorrectable word was met, in the order of R171. -/
inductive Consumer where
  | trunkSend | starSend | print | localRead | copy | pool | directory | lending | roster | job | scrubber
deriving DecidableEq, Repr

/-- The error a capture record holds (R171). -/
structure Capture where
  loc : WordLoc
  syndrome : BitVec 7
  consumer : Consumer
deriving DecidableEq, Repr

/-- A word whose contents and check bits disagree: what a read of it will find (model's own; R169, R170). -/
structure BadWord where
  loc : WordLoc
  damage : Damage
  struck : Time
deriving DecidableEq, Repr

/-- The block and word of a retire test (R172). -/
structure TestTarget where
  block : BlockNo
  word : Nat
deriving DecidableEq, Repr

structure CheckUnit where
  capture : Option Capture
  further : Nat
  corrected : Nat
  lastCorrected : Option WordLoc
  scrubPos : Nat
  /-- When the scrubber next reads (R176). -/
  scrubAt : Option Time
  /-- The retire test in hand, with the moment it began. -/
  test : Option (TestTarget × Time)
  waiting : List TestTarget
  /-- The words that are not sound. -/
  bad : List BadWord
deriving DecidableEq, Repr

/-! ### Settings and Inspection Unit (chapter 11) -/

inductive DeviceState where
  | loading
  | run
  | relayOnly
deriving DecidableEq, Repr

/-- The settings in force, in the order of R15. -/
structure Settings where
  /-- Absent in RELAY-ONLY. -/
  baseId : Option Ident
  trunkPrefix : BitVec 40
  lendLow : Nat
  lendHigh : Nat
  reservedLow : Nat
  adminList : List Byte
  partitionThreshold : Nat
  restoreThreshold : Nat
  announcePeriod : Nat
  aliasHold : Nat
  directoryAge : Nat
  quarantineTime : Nat
  starErrorLimit : Nat
  starBroadcastLimit : Nat
  starHold : Nat
  portMask : Byte
  printEnable : Byte
  separatorDefault : Byte
  spoolCap : Nat
  spoolFloor : Nat
  portQuota : Nat
  jobIdle : Nat
  nodeAge : Nat
deriving DecidableEq, Repr

/-- Who sent an INSPECT-REQ or a print request: a station number, or a star node by port and identifier (R136, R180). -/
inductive Requester where
  | station (n : Byte)
  | node (p : PortId) (ident : Ident)
deriving DecidableEq, Repr

/-- An INSPECT-REQ handed to the unit and not yet judged, with the chain it still holds (R13, R55). -/
structure Request where
  requester : Requester
  op : Byte
  cls : Byte
  index : Byte
  command : Byte
  argument : Byte
  chain : BlockNo
deriving DecidableEq, Repr

structure AdminUnit where
  device : DeviceState
  /-- The read of the EEPROM is under way (R177). -/
  reading : Bool
  settings : Settings
  imageVersion : Byte
  /-- The settings status, one flag per field, as R182 numbers them. -/
  clamped : BitVec 32
  seq : BitVec 8
  /-- The moment of the RESTART command that is not yet carried out (R184). -/
  restartPending : Option Time
  /-- The moment of step 2 of that RESTART (R184). -/
  releasesSent : Option Time
  /-- The RUN lamp (R185). -/
  runLamp : Bool
  /-- The flash timer's expiry in RELAY-ONLY (R185). -/
  flashAt : Option Time
  /-- The INSPECT-REQs handed over and not yet judged, oldest first. -/
  inbox : List Request
deriving DecidableEq, Repr

/-- The levels of the input pins that the part follows (section 11.5). Carrier is not among them: `TrunkUnit.rx` and
`TrunkUnit.otherCarrier` show it. -/
structure Pins where
  /-- RESET is asserted, or power has not settled. -/
  resetAsserted : Bool
  lineFault : Sides Bool
  link : Vector Bool 6
  printer : PrinterLines
deriving DecidableEq, Repr

end Sys2Proof.Machine
end

