-- ==== Sys2Proof/Machine/Reset.lean ====
section
/-! DEFINITION. The values each block takes at full reset, by the reset rule of its chapter, and the rebuild of the block records
that reset and pool recovery share. -/

namespace Sys2Proof.Machine

/-- The default column of R15, which RELAY-ONLY uses, and which stands here until a load ends. (DESIGN CHOICE, unsafe: log entry 38.) -/
def Settings.default : Settings where
  baseId := none
  trunkPrefix := 0x000000007E
  lendLow := 128
  lendHigh := 223
  reservedLow := 224
  adminList := [0, 0, 0, 0]
  partitionThreshold := 512
  restoreThreshold := 128
  announcePeriod := 10
  aliasHold := 120
  directoryAge := 600
  quarantineTime := 60
  starErrorLimit := 16
  starBroadcastLimit := 200
  starHold := 30
  portMask := 0
  printEnable := 0
  separatorDefault := 0
  spoolCap := 128
  spoolFloor := 32
  portQuota := 64
  jobIdle := 60
  nodeAge := 300

/-- Window counts of 0. -/
def WindowCounts.zero : WindowCounts := ⟨0, 0, 0, 0, 0, 0, 0, false⟩

/-- A Trunk Access Unit after full reset (R17). -/
def TrunkUnit.reset : TrunkUnit where
  queue := []
  staging := none
  rx := none
  c := 0
  window := WindowCounts.zero
  totals := Tally.zero 14
  sending := .silent
  lineOut := []
  otherCarrier := false
  idleSince := some 0
  quiet := false
  reservedUntil := 0
  heardUntil := 0
  ownWindowUntil := 0
  answer := none

/-- A Star Port Unit after full reset (R41). -/
def Port.reset : Port where
  state := .disabled
  nodes := []
  queue := []
  staging := none
  rx := none
  window := ⟨0, 0, 0⟩
  totals := Tally.zero 13
  k := 0
  lastRestore := none
  sending := none
  lineOut := []
  lastSent := none
  ignoreBefore := 0
  countBefore := 0
  leftUp := none
  windowEnd := none
  holdEnd := none
  isolations := 0

/-- The block record of a FREE block whose successor in the free list is `next`. -/
def BlockRecord.freeRecord (next : Option BlockNo) : BlockRecord := ⟨.free, next, false, none⟩

/-- The block record of a RETIRED block (R63). -/
def BlockRecord.retiredRecord : BlockRecord := ⟨.retired, none, false, none⟩

/-- The 256 records in which the blocks outside `retired` are FREE, threaded in ascending order, and the others RETIRED; and the
head and tail of that free list (R64, R66). -/
def rebuiltList (retired : List BlockNo) : Nat → List BlockRecord → Option BlockNo → Option BlockNo →
    List BlockRecord × Option BlockNo × Option BlockNo
  | 0, acc, head, tail => (acc, head, tail)
  | k + 1, acc, head, tail =>
    let b : BlockNo := Fin.ofNat 256 k
    if retired.contains b then rebuiltList retired k (.retiredRecord :: acc) head tail
    else rebuiltList retired k (.freeRecord head :: acc) (some b) (tail.or (some b))

theorem rebuiltList_length (retired : List BlockNo) (k : Nat) (acc : List BlockRecord) (head tail : Option BlockNo) :
    (rebuiltList retired k acc head tail).1.length = k + acc.length := by
  induction k generalizing acc head tail with
  | zero => simp [rebuiltList]
  | succ k ih => simp only [rebuiltList]; split <;> simp [ih] <;> omega

/-- A pool whose every block outside `retired` is FREE (R64 step 3, R66). -/
def Pool.rebuilt (retired : List BlockNo) (counters : Tally 6) (recovering : Bool) : Pool where
  records := ⟨⟨(rebuiltList retired 256 [] none none).1⟩, by simp [rebuiltList_length]⟩
  head := (rebuiltList retired 256 [] none none).2.1
  tail := (rebuiltList retired 256 [] none none).2.2
  free := 256 - retired.length
  forwardingHeld := 0
  spoolHeld := 0
  retiredCount := retired.length
  held := Vector.replicate 9 0
  retired := retired
  counters := counters
  recovering := recovering

/-- The Health Monitor's items of a side after full reset (R152). -/
def SideHealth.reset : SideHealth where
  score := 0
  state := .joined
  reason := none
  cleanRun := 0
  windowEnd := none
  loopHold := none
  pendingRestore := false
  lastWindow := WindowCounts.zero
  partitionsHealth := 0
  partitionsLoop := 0
  partitionsAdmin := 0
  restores := 0

/-- The Print Spool after full reset (R134); the printer state is DESIGN CHOICE, log entry 8. -/
def PrintSpool.reset : PrintSpool where
  jobs := Vector.replicate 12 none
  order := []
  printer := .absent
  stall := false
  inHand := none
  byteTimer := none
  absentMark := false
  absentWatch := none
  initPending := false
  initPulse := none
  linesTaken := false
  separatorDue := false
  jobCounter := 1
  seq := 0
  counters := Tally.zero 15
  dataLines := 0
  outbox := []

/-- The input pins' levels taken at power-on: nothing asserted, no link, no printer (log entry 14). (DESIGN CHOICE, unsafe: log entry 14.) -/
def Pins.reset : Pins where
  resetAsserted := true
  lineFault := ⟨false, false⟩
  link := Vector.replicate 6 false
  printer := ⟨false, true, false, false, true⟩

/-- The Settings and Inspection Unit after full reset (R177). -/
def AdminUnit.reset : AdminUnit where
  device := .loading
  reading := false
  settings := Settings.default
  imageVersion := 0
  clamped := 0
  seq := 0
  restartPending := none
  releasesSent := none
  runLamp := false
  flashAt := none
  inbox := []

/-- The Station Directory after full reset (R69, R85). -/
def Directory.reset : Directory where
  records := Vector.replicate 256 none
  counters := Tally.zero 8

/-- The Forwarding Engine after full reset (R86). -/
def Forwarding.reset : Forwarding where
  broadcasts := []
  decodes := Tally.zero 12
  drops := Tally.zero 13
  outcomes := Tally.zero 7
  proxy := ⟨0, 0, Vector.replicate 6 0, 0⟩

/-- The Alias Unit after full reset (R108): entry 0 in use and waiting in the claim queue. The base identifier and the print enable
setting are not read yet, so its identifier stands as 0, and entry 1 as free, until LOADING ends (log entry 7). (DESIGN CHOICE, unsafe: log entry 7.) -/
def LendUnit.reset : LendUnit where
  table := (Vector.replicate 32 none).set 0 (some ⟨.junction, 0, none, .unbound, 0, 0, 0⟩)
  claims := [0]
  avoid := []
  roster := Vector.replicate 16 none
  announceAt := none
  seq := 0
  counters := Tally.zero 17

/-- The Health Monitor after full reset (R152). -/
def Health.reset : Health where
  sides := ⟨SideHealth.reset, SideHealth.reset⟩
  assessment := none
  ownLooped := false
  watches := []
  assessments := 0
  loopBreaks := 0

/-- The Check Unit after full reset (R171). -/
def CheckUnit.reset : CheckUnit where
  capture := none
  further := 0
  corrected := 0
  lastCorrected := none
  scrubPos := 0
  scrubAt := none
  test := none
  waiting := []
  bad := []

end Sys2Proof.Machine
end

