-- ==== Sys2Proof/Machine/State.lean ====
section
/-! DEFINITION. The state of the Hadcel 7340: the state of each block of the manual's block overview (the types stand in
Types.lean), the input pins' levels, block memory, the model's clock and the queue of waiting commands; why a step could stop; and
the machine right after full reset. -/

namespace Sys2Proof.Machine

/-- The state of the part. -/
structure State where
  /-- The model's clock (log entry 1). -/
  now : Time
  /-- The commands that wait, first in, first out. -/
  pending : List Instr
  pins : Pins
  admin : AdminUnit
  trunk : Sides TrunkUnit
  receipts : List Receipt
  transmissions : List Transmission
  ports : Vector Port 6
  pool : Pool
  /-- Block memory: byte `128 * block + offset`, in canonical form. -/
  memory : List Host.Cell
  directory : Directory
  engine : Forwarding
  lend : LendUnit
  spool : PrintSpool
  health : Health
  check : CheckUnit
deriving DecidableEq, Repr

/-- Why the machine would stop with a fault. It has no constructor: the manual gives every event of the table its effect, so no
meaning of this model faults (neither safe nor unsafe: nothing raises one). -/
inductive Fault where
deriving DecidableEq, Repr

/-- Why the model gives a command no meaning. -/
inductive Refusal where
  /-- Raised by `exec`'s arm of a command that has no meaning yet; no arm is one. Safe: the run stops. -/
  | notModelled (mnemonic : String)
deriving DecidableEq, Repr

/-- The machine right after full reset: every block as its chapter's reset rule says, RESET asserted (or power not yet settled),
the device LOADING, nothing listed in block memory, and no command waiting. -/
def State.reset : State where
  now := 0
  pending := []
  pins := Pins.reset
  admin := AdminUnit.reset
  trunk := ⟨TrunkUnit.reset, TrunkUnit.reset⟩
  receipts := []
  transmissions := []
  ports := Vector.replicate 6 Port.reset
  pool := Pool.rebuilt [] (Tally.zero 6) false
  memory := []
  directory := Directory.reset
  engine := Forwarding.reset
  lend := LendUnit.reset
  spool := PrintSpool.reset
  health := Health.reset
  check := CheckUnit.reset

end Sys2Proof.Machine
end

