-- ==== Sys2Proof/Machine/Flags.lean ====
section
/-! DEFINITION. The numbers and conditions the rules compute: the place of each counter in its set, the health score, the backoff
wait, the receive windows, the candidate walk's start, the printer's state from its lines, and the isolation hold. Pure functions. -/

namespace Sys2Proof.Machine

/-! ### Places of the counters in their sets -/

/-- Place of a side total (R37). -/
def SideTotal.idx : SideTotal → Fin 14
  | .good => 0 | .checkErrors => 1 | .runts => 2 | .fragments => 3 | .overlong => 4 | .jabbers => 5 | .overruns => 6
  | .attempts => 7 | .collisions => 8 | .lateCollisions => 9 | .ackMisses => 10
  | .acksSent => 11 | .naksSent => 12 | .answerCollisions => 13

/-- Place of a port total (R53). -/
def PortTotal.idx : PortTotal → Fin 13
  | .good => 0 | .broadcasts => 1 | .checkErrors => 2 | .runts => 3 | .overlong => 4 | .overruns => 5
  | .cut => 6 | .isolatedDiscards => 7 | .sourceClash => 8 | .nodeFull => 9 | .sent => 10 | .flushed => 11 | .damaged => 12

/-- Place of a pool counter (R67). -/
def PoolCount.idx : PoolCount → Fin 6
  | .noFree => 0 | .forwardCap => 1 | .quota => 2 | .reclass => 3 | .retireOverflows => 4 | .recoveries => 5

/-- Place of a directory counter (R85). -/
def DirCount.idx : DirCount → Fin 8
  | .learned => 0 | .moves => 1 | .quarantines => 2 | .aged => 3 | .conflictNotices => 4 | .upkeepWrites => 5
  | .upkeepRemovals => 6 | .refusedWrites => 7

/-- Place of a decode counter (R86). -/
def DecodeCount.idx : DecodeCount → Fin 12
  | .malformed => 0 | .reserved => 1 | .quarantine => 2 | .broadcast => 3 | .lent => 4 | .filter => 5 | .relay => 6
  | .unreachable => 7 | .flood => 8 | .noPath => 9 | .switched => 10 | .unresolved => 11

/-- Place of a drop counter (R86). -/
def DropCount.idx : DropCount → Fin 13
  | .echo => 0 | .reservedSource => 1 | .repeated => 2 | .floodRepeat => 3 | .noAlias => 4 | .forbiddenKind => 5
  | .tooLarge => 6 | .held => 7 | .placement => 8 | .copy => 9 | .localDiscard => 10 | .notBound => 11 | .reAcks => 12

/-- Place of an outcome counter (R86). -/
def TxOutcome.idx : TxOutcome → Fin 7
  | .delivered => 0 | .collisionLimit => 1 | .ackLimit => 2 | .busyLimit => 3 | .refused => 4 | .flushed => 5 | .damaged => 6

/-- Place of an outcome's loss counter; DELIVERED is no loss (R86, R104). -/
def TxOutcome.loss : TxOutcome → Option (Fin 6)
  | .delivered => none
  | .collisionLimit => some 0 | .ackLimit => some 1 | .busyLimit => some 2 | .refused => some 3 | .flushed => some 4
  | .damaged => some 5

/-- Place of an Alias Unit counter (R130). -/
def LendCount.idx : LendCount → Fin 17
  | .nodeLimit => 0 | .binds => 1 | .probeLosses => 2 | .tiesWon => 3 | .tiesLost => 4 | .failures => 5 | .defends => 6
  | .conflicts => 7 | .duplicatesKept => 8 | .duplicatesLost => 9 | .holds => 10 | .holdExpiries => 11 | .nodeReleases => 12
  | .announcesSent => 13 | .rosterReplacements => 14 | .notFormed => 15 | .placementsRefused => 16

/-- Place of a Print Spool counter (R151). -/
def SpoolCount.idx : SpoolCount → Fin 15
  | .opensAccepted => 0 | .openRefusals => 1 | .dataAccepted => 2 | .dataDiscarded => 3 | .dataDuplicates => 4
  | .noAddressDiscards => 5 | .jobsDone => 6 | .jobsCancelled => 7 | .evictions => 8 | .idleCancellations => 9
  | .originLosses => 10 | .jobsDamaged => 11 | .holds => 12 | .stalls => 13 | .notFormed => 14

/-- The decode counter of an outcome (R86). -/
def Decode.count : Decode → DecodeCount
  | .malformed => .malformed | .reserved => .reserved | .quarantine => .quarantine | .broadcast => .broadcast
  | .entry _ _ | .junction | .printer => .lent
  | .filter => .filter | .relay _ _ => .relay | .unreachable => .unreachable | .flood _ => .flood | .noPath => .noPath
  | .switchTo _ => .switched | .unresolved => .unresolved

/-- The place of an ingress tag in the list of R55: WEST, EAST, STAR-1 to STAR-6, LOCAL. -/
def Origin.idx : Origin → Fin 9
  | .side .west => 0
  | .side .east => 1
  | .star p => ⟨p.val + 2, by omega⟩
  | .internal => 8

/-- Whether an origin is a coax side (R34). -/
def Origin.isSide : Origin → Bool
  | .side _ => true
  | _ => false

/-! ### The health score (R153, R154) -/

/-- Step 1: excess collisions. -/
def excessCollisions (w : WindowCounts) : Nat := w.co - w.tx / 2

/-- Step 2: the points of a window, at most 255. -/
def windowPoints (w : WindowCounts) : Nat :=
  min 255 (4 * w.ce + 2 * w.ru + 8 * w.lc + 32 * w.jb + 4 * w.am + excessCollisions w + 64 * (if w.lf then 1 else 0))

/-- Step 3: the decay of a score. -/
def scoreDecay (h : Nat) : Nat := (h + 3) / 4

/-- Step 4: the new score. -/
def newScore (h : Nat) (w : WindowCounts) : Nat := min 1023 (h - scoreDecay h + windowPoints w)

/-- A clean window: it ended with Jb = 0 and Lf = 0 (R154). -/
def cleanWindow (w : WindowCounts) : Bool := w.jb == 0 && !w.lf

/-- The clean-window run after a window (R154). -/
def newCleanRun (run : Nat) (w : WindowCounts) : Nat := if cleanWindow w then satUp 255 run else 0

/-! ### Backoff (R22) -/

/-- The backoff window W after the n-th collision. -/
def backoffWindow (n : Nat) : Nat := 2 ^ min (n + 1) 5

/-- The backoff wait B in slots, from the junction's number S, the collision n and the counter C after its increment. -/
def backoffSlots (s n c : Nat) : Nat := (5 * s + 3 * n + c) % backoffWindow n

/-! ### Receive windows (R138) -/

/-- The room left to spooling. -/
def spoolRoom (cap held : Nat) : Nat := cap - held

/-- The spool is tight. -/
def spoolTight (cap held : Nat) : Bool := decide (spoolRoom cap held < cap / 4)

/-- The window of a RECEIVING job, from SpoolCap, spool-held, the number of RECEIVING jobs, and whether it is the oldest. -/
def receiveWindow (cap held receivers : Nat) (oldest : Bool) : Nat :=
  if spoolTight cap held then (if oldest then min 8 (spoolRoom cap held / 4) else 0)
  else min 8 (spoolRoom cap held / 4 / receivers)

/-! ### The candidate walk (R113) -/

/-- lendSize. -/
def lendSize (cfg : Settings) : Nat := cfg.lendHigh - cfg.lendLow + 1

/-- The numbers of the walk of a client, in order. -/
def candidateWalk (cfg : Settings) (client : Ident) : List Byte :=
  (List.range (lendSize cfg)).map
    (fun k => BitVec.ofNat 8 (cfg.lendLow + (client.toNat % lendSize cfg + k) % lendSize cfg))

/-! ### The number ranges (R15) -/

/-- The number lies in the reserved range, reservedLow to 254. -/
def Settings.isReserved (cfg : Settings) (n : Byte) : Bool := decide (cfg.reservedLow ≤ n.toNat) && decide (n.toNat ≤ 254)

/-- The number lies in the lending range. -/
def Settings.isLending (cfg : Settings) (n : Byte) : Bool := decide (cfg.lendLow ≤ n.toNat) && decide (n.toNat ≤ cfg.lendHigh)

/-- The printer identifier: the base identifier plus one (R7). -/
def Settings.printerId (cfg : Settings) : Option Ident := cfg.baseId.map (· + 1)

/-- Printing is enabled: any value but 0 (R15). -/
def Settings.printing (cfg : Settings) : Bool := cfg.printEnable != 0

/-- Whether a port's bit of the star port enable mask is set (R15). -/
def Settings.portEnabled (cfg : Settings) (p : PortId) : Bool := cfg.portMask.getLsbD p.val

/-- ForwardCap (R56). -/
def Settings.forwardCap (cfg : Settings) : Nat := 256 - cfg.spoolFloor

/-! ### The printer's state from its lines (R131) -/

/-- The first row of R131's table whose condition holds. -/
def printerStateOf (absentMark stall : Bool) (l : PrinterLines) : PrinterState :=
  if absentMark then .absent
  else if !l.select then .offline
  else if l.paperOut then .paperOut
  else if !l.fault || stall then .fault
  else if l.busy then .busy
  else .ready

/-- The hold reason of a printer state that stops printing, FAULT being STALLED when it comes from the stall condition (R147). (DEDUCED, unsafe: log entry 23.) -/
def holdReason (st : PrinterState) (stall : Bool) (l : PrinterLines) : Option Reason :=
  match st with
  | .offline | .absent => some .offline
  | .paperOut => some .paperOut
  | .fault => some (if stall && l.fault then .stalled else .fault)
  | .busy | .ready => none

/-! ### Star port isolation (R163, R164) -/

/-- Whether a window's counts isolate a port (R163). -/
def isolates (cfg : Settings) (w : PortCounts) : Bool :=
  decide (cfg.starErrorLimit ≤ w.ce) || decide (cfg.starBroadcastLimit < w.bc) || decide (1 ≤ w.ov)

/-- The consecutive-isolation count that an isolation at `now` sets (R164); exactly 60 s after the last restore counts as within
60 s of it. (DEDUCED, unsafe: log entry 73.) -/
def newIsolationCount (k : Nat) (lastRestore : Option Time) (now : Time) : Nat :=
  match lastRestore with
  | some t => if now ≤ t + Config.isolationMemory then satUp 255 k else 1
  | none => 1

/-- The hold of an isolation (R164). -/
def isolationHold (cfg : Settings) (k : Nat) : Time := cfg.starHold * 2 ^ min (k - 1) 3 * Config.sec

/-! ### The other side -/

/-- The other coax side. -/
def otherSide : Side → Side
  | .west => .east
  | .east => .west

end Sys2Proof.Machine
end

