-- ==== Sys2Proof/Machine/Operands.lean ====
section
/-! DEFINITION. What the commands' bytes mean: kinds, headers, checks, classes, identifiers and payloads, and the frames the
junction forms (chapter 1, Frame and Image Formats). Pure functions on bytes; no state. -/

namespace Sys2Proof.Machine

/-! ### Fields of more than one byte, most significant byte first -/

/-- A two-byte field. -/
def word16 (hi lo : Byte) : BitVec 16 := hi ++ lo

/-- The two bytes of a number of 0 to 65,535. -/
def bytes16 (n : Nat) : List Byte := [BitVec.ofNat 8 (n / 256), BitVec.ofNat 8 n]

/-- The four bytes of a 32-bit counter. -/
def bytes32 (n : Nat) : List Byte := bytes16 (n / 65536) ++ bytes16 (n % 65536)

/-- One byte holding a number of 0 to 255. -/
def byte1 (n : Nat) : Byte := BitVec.ofNat 8 n

/-- An identifier from its six pairs, as sent. -/
def identOf (b0 b1 b2 b3 b4 b5 : Byte) : Ident := b0 ++ b1 ++ b2 ++ b3 ++ b4 ++ b5

/-- The six pairs of an identifier, in the order sent. -/
def bytesOfIdent (i : Ident) : List Byte :=
  [i.extractLsb' 40 8, i.extractLsb' 32 8, i.extractLsb' 24 8, i.extractLsb' 16 8, i.extractLsb' 8 8, i.extractLsb' 0 8]

/-! ### Kinds (R2) -/

/-- The kinds of R2. -/
inductive Kind where
  | data | datagram | ack | nak
  | printOpen | printData | printClose | printCancel | printQuery | printStatus
  | claim | defend | release | announce
  | inspectReq | inspectReply
  | unknown
deriving DecidableEq, Repr

/-- The kind a kind byte names (R2). -/
def kindOf (k : Byte) : Kind :=
  match k.toNat with
  | 1 => .data | 2 => .datagram | 3 => .ack | 4 => .nak
  | 16 => .printOpen | 17 => .printData | 18 => .printClose | 19 => .printCancel | 20 => .printQuery | 21 => .printStatus
  | 64 => .claim | 65 => .defend | 66 => .release | 67 => .announce
  | 72 => .inspectReq | 73 => .inspectReply
  | _ => .unknown

/-- The code of each known kind (R2); 0 for `unknown`, which has no one code. -/
def Kind.code : Kind → Byte
  | .data => 1 | .datagram => 2 | .ack => 3 | .nak => 4
  | .printOpen => 16 | .printData => 17 | .printClose => 18 | .printCancel => 19 | .printQuery => 20 | .printStatus => 21
  | .claim => 64 | .defend => 65 | .release => 66 | .announce => 67
  | .inspectReq => 72 | .inspectReply => 73
  | .unknown => 0

/-- Whether a kind is of the acknowledged class; an unknown kind is (R2). -/
def Kind.acknowledged : Kind → Bool
  | .datagram | .ack | .nak | .claim | .defend | .release | .announce => false
  | _ => true

/-- ACK or NAK. -/
def Kind.isAnswer : Kind → Bool
  | .ack | .nak => true
  | _ => false

/-- CLAIM, DEFEND, RELEASE or ANNOUNCE: the kinds whose source names the number they concern (R3). -/
def Kind.isLending : Kind → Bool
  | .claim | .defend | .release | .announce => true
  | _ => false

/-- The five request kinds of the print protocol: the PRINT kinds but PRINT-STATUS. -/
def Kind.isPrintRequest : Kind → Bool
  | .printOpen | .printData | .printClose | .printCancel | .printQuery => true
  | _ => false

/-- The kinds that may cross from a star port to the trunk (R99, test 2). -/
def Kind.mayCross : Kind → Bool
  | .data | .datagram | .printOpen | .printData | .printClose | .printCancel | .printQuery | .printStatus
  | .inspectReq | .inspectReply => true
  | _ => false

/-- A directed frame: an acknowledged kind sent to 1 to 254 (R2). -/
def directed (kind dest : Byte) : Bool :=
  (kindOf kind).acknowledged && (dest != 0) && (dest != 255)

/-! ### Checks (R4, R6) -/

/-- One data bit through a check register with generator `poly`. -/
def crcBit {w : Nat} (poly : BitVec w) (reg : BitVec w) (bit : Bool) : BitVec w :=
  if reg.msb != bit then (reg <<< 1) ^^^ poly else reg <<< 1

/-- One byte through the register, most significant bit first. -/
def crcByte {w : Nat} (poly : BitVec w) (reg : BitVec w) (b : Byte) : BitVec w :=
  [7, 6, 5, 4, 3, 2, 1, 0].foldl (fun r i => crcBit poly r (b.getLsbD i)) reg

/-- The 16-bit trunk check of the bytes before it (R4). -/
def trunkCheck (bytes : List Byte) : BitVec 16 := bytes.foldl (crcByte 0x1021#16) 0xFFFF#16

/-- The 32-bit star check of the bytes before it (R6). -/
def starCheck (bytes : List Byte) : BitVec 32 := ~~~(bytes.foldl (crcByte 0x04C11DB7#32) 0xFFFFFFFF#32)

/-- The two bytes of a trunk check, high byte first. -/
def checkBytes16 (c : BitVec 16) : List Byte := [c.extractLsb' 8 8, c.extractLsb' 0 8]

/-- The four bytes of a star check, high byte first. -/
def checkBytes32 (c : BitVec 32) : List Byte :=
  [c.extractLsb' 24 8, c.extractLsb' 16 8, c.extractLsb' 8 8, c.extractLsb' 0 8]

/-- The bytes with their trunk check behind them. -/
def withTrunkCheck (bytes : List Byte) : List Byte := bytes ++ checkBytes16 (trunkCheck bytes)

/-- The bytes with their star check behind them. -/
def withStarCheck (bytes : List Byte) : List Byte := bytes ++ checkBytes32 (starCheck bytes)

/-- A trunk frame ended early: the bytes sent, then their inverted check (R4, R27). -/
def cutTrunk (sent : List Byte) : List Byte := sent ++ checkBytes16 (~~~(trunkCheck sent))

/-- A star frame ended early: the bytes sent, then their inverted check (R6, R52). -/
def cutStar (sent : List Byte) : List Byte := sent ++ checkBytes32 (~~~(starCheck sent))

/-! ### Headers, lengths and classes -/

/-- The trunk header in the first six bytes (R1). -/
def trunkHeaderOf : List Byte → Option TrunkHeader
  | d :: s :: k :: q :: l1 :: l0 :: _ => some ⟨d, s, k, q, word16 l1 l0⟩
  | _ => none

/-- The star header in the first sixteen bytes (R6). -/
def starHeaderOf : List Byte → Option StarHeader
  | d0 :: d1 :: d2 :: d3 :: d4 :: d5 :: s0 :: s1 :: s2 :: s3 :: s4 :: s5 :: k :: q :: l1 :: l0 :: _ =>
    some ⟨identOf d0 d1 d2 d3 d4 d5, identOf s0 s1 s2 s3 s4 s5, k, q, word16 l1 l0⟩
  | _ => none

/-- The bytes of a stored header of each form. -/
def headerBytes : Form → Nat
  | .trunk => 6
  | .star => 16

/-- The length of a trunk frame of payload length L (R1, R5). -/
def trunkFrameLength (l : Nat) : Nat := max (6 + l) 14 + 2

/-- The length of a star frame of payload length L (R6). -/
def starFrameLength (l : Nat) : Nat := max (16 + l) 20 + 4

/-- The blocks a frame of N bytes takes: N/128 rounded up (R55). -/
def blocksFor (n : Nat) : Nat := (n + 127) / 128

/-- The bytes of a trunk frame before its check: header, payload and pad (R1). -/
def trunkBody (h : TrunkHeader) (payload : List Byte) : List Byte :=
  let bs := [h.dest, h.src, h.kind, h.seq, h.len.extractLsb' 8 8, h.len.extractLsb' 0 8] ++ payload
  bs ++ List.replicate (14 - bs.length) 0

/-- A whole trunk frame with a fresh check (R1, R4). -/
def trunkFrame (h : TrunkHeader) (payload : List Byte) : List Byte := withTrunkCheck (trunkBody h payload)

/-- The bytes of a star frame before its check: header, payload and pad (R6). -/
def starBody (h : StarHeader) (payload : List Byte) : List Byte :=
  let bs := bytesOfIdent h.dest ++ bytesOfIdent h.src ++ [h.kind, h.seq, h.len.extractLsb' 8 8, h.len.extractLsb' 0 8] ++ payload
  bs ++ List.replicate (20 - bs.length) 0

/-- A whole star frame with a fresh check (R6). -/
def starFrame (h : StarHeader) (payload : List Byte) : List Byte := withStarCheck (starBody h payload)

/-- The class of a trunk burst, by the four tests of R5 in order. -/
def classifyTrunk (bytes : List Byte) : BurstClass :=
  let n := bytes.length
  if n < 16 then .runt
  else if 520 < n then .overlong
  else if bytes.drop (n - 2) ≠ checkBytes16 (trunkCheck (bytes.take (n - 2))) then .checkError
  else match trunkHeaderOf bytes with
    | some h => if h.len.toNat ≤ 512 ∧ n = trunkFrameLength h.len.toNat then .good else .overlong
    | none => .runt

/-- The class of a star frame, by the same tests with the star's sizes (R6). -/
def classifyStar (bytes : List Byte) : BurstClass :=
  let n := bytes.length
  if n < 24 then .runt
  else if 1520 < n then .overlong
  else if bytes.drop (n - 4) ≠ checkBytes32 (starCheck (bytes.take (n - 4))) then .checkError
  else match starHeaderOf bytes with
    | some h => if h.len.toNat ≤ 1500 ∧ n = starFrameLength h.len.toNat then .good else .overlong
    | none => .runt

/-! ### Identifiers (R7) -/

/-- The star broadcast identifier. -/
def starBroadcast : Ident := 0xFFFFFFFFFFFF#48

/-- The trunk-form identifier of a station number under a trunk prefix. -/
def trunkForm (pre : BitVec 40) (n : Byte) : Ident := pre ++ n

/-- The station number of a trunk-form identifier; absent when the identifier is not trunk-form. -/
def trunkFormNumber (pre : BitVec 40) (i : Ident) : Option Byte :=
  if i.extractLsb' 8 40 = pre then some (i.extractLsb' 0 8) else none

/-- A star source that makes a frame header-malformed: all zeros or all ones (R6). -/
def malformedSource (j : Ident) : Bool := j == 0 || j == starBroadcast

/-! ### Answers (R8) -/

/-- How a NAK's payload is read: BUSY, UNREACHABLE, or REFUSED for every other reason or payload length (R8). -/
inductive NakReason where
  | busy
  | refused
  | unreachable
deriving DecidableEq, Repr

/-- The reason of a NAK with payload length `len` and first payload byte `reason` (R8). -/
def nakReason (len : Nat) (reason : Byte) : NakReason :=
  if len = 1 ∧ reason = 1 then .busy
  else if len = 1 ∧ reason = 3 then .unreachable
  else .refused

/-- The reason codes the junction sends (R8). -/
def NakReason.code : NakReason → Byte
  | .busy => 1
  | .refused => 2
  | .unreachable => 3

/-- The sixteen bytes of an answer (R8, R28). -/
def answerFrame (a : Answer) : List Byte :=
  match a.nak with
  | none => trunkFrame ⟨a.dest, a.src, Kind.ack.code, a.seq, 0⟩ []
  | some r => trunkFrame ⟨a.dest, a.src, Kind.nak.code, a.seq, 1⟩ [r]

/-! ### Junction payloads (R9, R10) -/

/-- The fields of a CLAIM, DEFEND or RELEASE; the junction identifier is absent in a RELEASE (R9). -/
structure LendPayload where
  number : Byte
  client : Ident
  junction : Option Ident
deriving DecidableEq, Repr

/-- Reads a CLAIM or DEFEND of 13 bytes, or a RELEASE of 7 (R9). -/
def readLend : List Byte → Option LendPayload
  | [n, c0, c1, c2, c3, c4, c5] => some ⟨n, identOf c0 c1 c2 c3 c4 c5, none⟩
  | [n, c0, c1, c2, c3, c4, c5, j0, j1, j2, j3, j4, j5] =>
    some ⟨n, identOf c0 c1 c2 c3 c4 c5, some (identOf j0 j1 j2 j3 j4 j5)⟩
  | _ => none

/-- The payload of a CLAIM, DEFEND or RELEASE (R9). -/
def lendPayload (p : LendPayload) : List Byte :=
  [p.number] ++ bytesOfIdent p.client ++ (match p.junction with | some j => bytesOfIdent j | none => [])

/-- An entry of an ANNOUNCE (R10); `isHeld` is state 2. -/
structure AnnounceEntry where
  number : Byte
  client : Ident
  isHeld : Bool
deriving DecidableEq, Repr

/-- An ANNOUNCE (R10). -/
structure Announce where
  junction : Ident
  number : Byte
  printer : Option (Byte × Byte)
  entries : List AnnounceEntry
deriving DecidableEq, Repr

/-- The payload of an ANNOUNCE (R10). -/
def announcePayload (a : Announce) : List Byte :=
  bytesOfIdent a.junction ++ [a.number] ++
  (match a.printer with | some (n, st) => [1, n, st] | none => [0]) ++
  [byte1 a.entries.length] ++
  a.entries.flatMap (fun e => [e.number] ++ bytesOfIdent e.client ++ [if e.isHeld then 2 else 1])

/-- Reads `count` entries of 8 bytes that fill the list exactly, each state 1 or 2. -/
def readEntries : Nat → List Byte → Option (List AnnounceEntry)
  | 0, [] => some []
  | k + 1, n :: c0 :: c1 :: c2 :: c3 :: c4 :: c5 :: st :: rest =>
    if st = 1 ∨ st = 2 then
      match readEntries k rest with
      | some es => some (⟨n, identOf c0 c1 c2 c3 c4 c5, st == 2⟩ :: es)
      | none => none
    else none
  | _, _ => none

/-- Reads the count byte and the list behind it; count is 0 to 31. -/
def readList : List Byte → Option (List AnnounceEntry)
  | count :: rest => if count.toNat ≤ 31 then readEntries count.toNat rest else none
  | [] => none

/-- Reads an ANNOUNCE payload, refusing what R14 calls payload-malformed: a wrong length, count, flag or state, or a number
twice across the junction number and the list, a junction number of 0 being no number. (DEDUCED, unsafe: log entry 58.) -/
def readAnnounce : List Byte → Option Announce
  | j0 :: j1 :: j2 :: j3 :: j4 :: j5 :: num :: present :: rest =>
    let j := identOf j0 j1 j2 j3 j4 j5
    let whole : Option Announce :=
      if present = 0 then (readList rest).map (⟨j, num, none, ·⟩)
      else if present = 1 then
        match rest with
        | pn :: ps :: rest' => (readList rest').map (⟨j, num, some (pn, ps), ·⟩)
        | _ => none
      else none
    match whole with
    | some a =>
      let nums := (if num = 0 then [] else [num]) ++ a.entries.map (·.number)
      if nums.Nodup then some a else none
    | none => none
  | _ => none

/-! ### Print payloads (R11, R12) -/

/-- A PRINT-OPEN (R11). -/
structure PrintOpen where
  name : List Byte
  copies : Nat
  size : Nat
  separator : Byte
deriving DecidableEq, Repr

/-- Reads a PRINT-OPEN whose name length is 1 to 16 and whose length is 5 + name length (R11, R14). -/
def readOpen : List Byte → Option PrintOpen
  | nl :: rest =>
    if 1 ≤ nl.toNat ∧ nl.toNat ≤ 16 ∧ rest.length = nl.toNat + 4 then
      match rest.drop nl.toNat with
      | [c, s1, s0, sep] => some ⟨rest.take nl.toNat, c.toNat, (word16 s1 s0).toNat, sep⟩
      | _ => none
    else none
  | [] => none

/-- One entry of a PRINT-STATUS (R12). -/
structure StatusEntry where
  number : Byte
  state : Byte
  reason : Byte
  nextIndex : Nat
  window : Nat
  position : Nat
  copiesLeft : Nat
deriving DecidableEq, Repr

/-- The payload of a PRINT-STATUS (R12). -/
def statusPayload (es : List StatusEntry) : List Byte :=
  [byte1 es.length] ++
  es.flatMap (fun e =>
    [e.number, e.state, e.reason] ++ bytes16 e.nextIndex ++ [byte1 e.window, byte1 e.position, byte1 e.copiesLeft])

/-- The state code of a job (R12). -/
def JobState.code : JobState → Byte
  | .receiving => 1 | .ready => 2 | .printing => 3 | .held => 4 | .done => 5 | .cancelled => 6 | .damaged => 7

/-- A reason code (R12). -/
def Reason.code : Reason → Byte
  | .none => 0 | .noAddress => 1 | .queueFull => 2 | .printerAbsent => 3 | .disabled => 4 | .tooLarge => 5 | .evicted => 6
  | .idle => 7 | .requested => 8 | .admin => 9 | .originLost => 10 | .offline => 11 | .paperOut => 12 | .fault => 13
  | .stalled => 14 | .memory => 15 | .outOfWindow => 16 | .incomplete => 17 | .noSuchJob => 18

/-- A printer state code (R10). -/
def PrinterState.code : PrinterState → Byte
  | .absent => 0 | .offline => 1 | .paperOut => 2 | .fault => 3 | .busy => 4 | .ready => 5

/-- The entry of a refused PRINT-OPEN: job number 0, state REFUSED, the reason, every other field 0 (R137). -/
def refusedEntry (r : Reason) : StatusEntry := ⟨0, 8, r.code, 0, 0, 0, 0⟩

/-- The entry of a job that does not exist: state NONE, reason NO-SUCH-JOB (R136). -/
def noJobEntry (n : Byte) : StatusEntry := ⟨n, 0, Reason.noSuchJob.code, 0, 0, 0, 0⟩

/-! ### Well-formed payloads (R14) -/

/-- Whether the payload of a frame of a known kind, on a trunk frame with source `src` or on a star frame (`none`), meets the
conditions of R14. -/
def payloadWellFormed (kind : Byte) (src : Option Byte) (payload : List Byte) : Bool :=
  let numberIsSource : Bool :=
    match src with
    | some s => payload.head? == some s
    | none => true
  match kindOf kind with
  | .claim | .defend => payload.length == 13 && numberIsSource
  | .release => payload.length == 7 && numberIsSource
  | .announce => (readAnnounce payload).isSome
  | .printOpen => (readOpen payload).isSome
  | .printData => decide (4 ≤ payload.length) && decide (payload.length ≤ 512)
  | .printClose => payload.length == 3
  | .printCancel | .printQuery => payload.length == 1
  | .inspectReq => payload.length == 5
  | _ => true

end Sys2Proof.Machine
end

