-- ==== Sys2Proof/Machine/Ops.lean ====
section
/-! DEFINITION. The named operations over the state that every block shares: reading and writing one block's items, block memory,
the clock, and the checking of protected words (chapter 10). -/

namespace Sys2Proof.Machine

/-! ### One item of a pair or a table -/

/-- The side's item. -/
def Sides.get {α : Type} (v : Sides α) : Side → α
  | .west => v.west
  | .east => v.east

/-- The pair with the side's item replaced. -/
def Sides.set {α : Type} (v : Sides α) (x : Side) (a : α) : Sides α :=
  match x with
  | .west => { v with west := a }
  | .east => { v with east := a }

/-- The settings in force. -/
def State.cfg (s : State) : Settings := s.admin.settings

/-- The Trunk Access Unit of a side. -/
def State.unit (s : State) (x : Side) : TrunkUnit := Sides.get s.trunk x

/-- Changes the Trunk Access Unit of a side. -/
def State.modUnit (s : State) (x : Side) (f : TrunkUnit → TrunkUnit) : State :=
  { s with trunk := Sides.set s.trunk x (f (Sides.get s.trunk x)) }

/-- A Star Port Unit. -/
def State.port (s : State) (p : PortId) : Port := s.ports[p]

/-- Changes a Star Port Unit. -/
def State.modPort (s : State) (p : PortId) (f : Port → Port) : State :=
  { s with ports := s.ports.set p (f s.ports[p]) }

/-- The Health Monitor's items of a side. -/
def State.side (s : State) (x : Side) : SideHealth := Sides.get s.health.sides x

/-- Changes the Health Monitor's items of a side. -/
def State.modSide (s : State) (x : Side) (f : SideHealth → SideHealth) : State :=
  { s with health := { s.health with sides := Sides.set s.health.sides x (f (Sides.get s.health.sides x)) } }

/-- The side is JOINED. -/
def State.joined (s : State) (x : Side) : Bool := decide ((s.side x).state = .joined)

/-- The sides that are JOINED, WEST first: of a frame that goes to both, WEST takes the chain and EAST the copy (R103). (DESIGN
CHOICE, unsafe: log entry 70.) -/
def State.joinedSides (s : State) : List Side := [Side.west, Side.east].filter s.joined

/-- Changes the Buffer Pool. -/
def State.modPool (s : State) (f : Pool → Pool) : State := { s with pool := f s.pool }

/-- Changes the Forwarding Engine. -/
def State.modEngine (s : State) (f : Forwarding → Forwarding) : State := { s with engine := f s.engine }

/-- Changes the Alias Unit. -/
def State.modLend (s : State) (f : LendUnit → LendUnit) : State := { s with lend := f s.lend }

/-- Changes the Print Spool. -/
def State.modSpool (s : State) (f : PrintSpool → PrintSpool) : State := { s with spool := f s.spool }

/-- Changes the Health Monitor. -/
def State.modHealth (s : State) (f : Health → Health) : State := { s with health := f s.health }

/-- Changes the Check Unit. -/
def State.modCheck (s : State) (f : CheckUnit → CheckUnit) : State := { s with check := f s.check }

/-- Changes the Settings and Inspection Unit. -/
def State.modAdmin (s : State) (f : AdminUnit → AdminUnit) : State := { s with admin := f s.admin }

/-! ### Counters -/

/-- Raises a side total (R37). -/
def State.raiseSide (s : State) (x : Side) (k : SideTotal) : State :=
  s.modUnit x (fun u => { u with totals := u.totals.raise k.idx })

/-- Raises a port total (R53). -/
def State.raisePort (s : State) (p : PortId) (k : PortTotal) : State :=
  s.modPort p (fun q => { q with totals := q.totals.raise k.idx })

/-- Raises a pool counter (R67). -/
def State.raisePool (s : State) (k : PoolCount) : State :=
  s.modPool (fun q => { q with counters := q.counters.raise k.idx })

/-- Raises a directory counter (R85). -/
def State.raiseDir (s : State) (k : DirCount) : State :=
  { s with directory := { s.directory with counters := s.directory.counters.raise k.idx } }

/-- Raises a decode counter (R86). -/
def State.raiseDecode (s : State) (k : DecodeCount) : State :=
  s.modEngine (fun q => { q with decodes := q.decodes.raise k.idx })

/-- Raises a drop counter (R86). -/
def State.raiseDrop (s : State) (k : DropCount) : State :=
  s.modEngine (fun q => { q with drops := q.drops.raise k.idx })

/-- Raises an Alias Unit counter (R130). -/
def State.raiseLend (s : State) (k : LendCount) : State :=
  s.modLend (fun q => { q with counters := q.counters.raise k.idx })

/-- Raises a Print Spool counter (R151). -/
def State.raiseSpool (s : State) (k : SpoolCount) : State :=
  s.modSpool (fun q => { q with counters := q.counters.raise k.idx })

/-- Changes the window counts of a side (R36). -/
def State.modWindow (s : State) (x : Side) (f : WindowCounts → WindowCounts) : State :=
  s.modUnit x (fun u => { u with window := f u.window })

/-! ### Block memory

Bytes 0 to 32,767: byte `128 * b + i` is byte i of block b. An unlisted byte reads as 0 (log entry 6). -/

/-- The byte at an address. (DESIGN CHOICE, unsafe: log entry 6.) -/
def readByte : List Host.Cell → Nat → Byte
  | [], _ => 0
  | (b, v) :: rest, a => if a = b then v else readByte rest a

/-- Memory with the byte at an address replaced, kept in canonical form. -/
def writeByte : List Host.Cell → Nat → Byte → List Host.Cell
  | [], a, v => if v = 0 then [] else [(a, v)]
  | (b, w) :: rest, a, v =>
    if a < b then (if v = 0 then (b, w) :: rest else (a, v) :: (b, w) :: rest)
    else if a = b then (if v = 0 then rest else (a, v) :: rest)
    else (b, w) :: writeByte rest a v

/-- Canonical form: addresses strictly rising from `lo`, and no byte listed that equals what an unlisted one reads as. -/
def risingFrom : Nat → List Host.Cell → Bool
  | _, [] => true
  | lo, (a, v) :: rest => decide (lo ≤ a) && (v != 0) && risingFrom (a + 1) rest

/-- The canonical form of block memory. -/
def Memory.wf (m : List Host.Cell) : Bool := risingFrom 0 m

/-- The address of byte i of a block. -/
def blockAddr (b : BlockNo) (i : Nat) : Nat := 128 * b.val + i

/-- The block of a chain's blocks that holds the chain's byte i, if the chain reaches so far. -/
def chainAddr (bs : List BlockNo) (i : Nat) : Option Nat := (bs[i / 128]?).map (blockAddr · (i % 128))

/-- Whether a bad word is the word of block memory that holds an address. -/
def BadWord.covers (w : BadWord) (a : Nat) : Bool :=
  decide (w.loc.store = .blockMemory) && (w.loc.index == a / 128) && (w.loc.offset == a % 128 / 4)

/-- Writes one byte of block memory; its word's check bits are made afresh (R169). A word that is not sound is not read for it, and is
sound from then on, its other three bytes as last stored. (DESIGN CHOICE, unsafe: log entry 97.) -/
def State.store (s : State) (a : Nat) (v : Byte) : State :=
  { s with memory := writeByte s.memory a v
           check := { s.check with bad := s.check.bad.filter (fun w => !w.covers a) } }

/-- Writes bytes into a chain from its byte i on, as far as the chain reaches. -/
def State.storeChain (bs : List BlockNo) : Nat → List Byte → State → State
  | _, [], s => s
  | i, v :: rest, s =>
    match chainAddr bs i with
    | some a => State.storeChain bs (i + 1) rest (s.store a v)
    | none => s

/-- Bytes `lo` to `lo + n - 1` of a chain. -/
def State.loadChain (s : State) (bs : List BlockNo) (lo n : Nat) : List Byte :=
  (List.range n).map (fun k => match chainAddr bs (lo + k) with | some a => readByte s.memory a | none => 0)

/-! ### The verdict of a read (R169 to R171) -/

/-- A corrected read: the count, the location, and the word rewritten sound (R170). -/
def State.noteCorrected (s : State) (w : BadWord) : State :=
  s.modCheck (fun c => { c with corrected := bump c.corrected, lastCorrected := some w.loc,
                                bad := c.bad.filter (fun v => v.loc != w.loc) })

/-- An uncorrectable read is recorded: latched when the capture record is empty, counted otherwise (R171). -/
def State.latch (s : State) (c : Consumer) (loc : WordLoc) (syndrome : BitVec 7) : State :=
  s.modCheck (fun k =>
    match k.capture with
    | none => { k with capture := some ⟨loc, syndrome, c⟩ }
    | some _ => { k with further := satUp 255 k.further })

/-- A consumer reads a word found not sound. -/
def State.meetWord (s : State) (c : Consumer) (w : BadWord) : State :=
  match w.damage with
  | .single => s.noteCorrected w
  | .uncorrectable syn => s.latch c w.loc syn

/-- A bad word put among others in the order of a key. -/
def insertWord (key : WordLoc → Nat) (w : BadWord) : List BadWord → List BadWord
  | [] => [w]
  | v :: rest => if key w.loc ≤ key v.loc then w :: v :: rest else v :: insertWord key w rest

/-- The words of a set that are not sound, in the order of a key: the order in which a reader comes to them. -/
def State.badWords (s : State) (key : WordLoc → Nat) (p : WordLoc → Bool) : List BadWord :=
  (s.check.bad.filter (fun w => p w.loc)).foldr (insertWord key) []

/-- A consumer reads the words of a set in the order of a key: each word of it that is not sound is met, those behind the first
uncorrectable one too. (DESIGN CHOICE, unsafe: log entry 75.) -/
def State.meetBy (s : State) (key : WordLoc → Nat) (c : Consumer) (p : WordLoc → Bool) : State :=
  (s.badWords key p).foldl (fun t w => t.meetWord c w) s

/-- A consumer reads the words of one item of a store, from its first word on. -/
def State.meet (s : State) (c : Consumer) (p : WordLoc → Bool) : State := s.meetBy WordLoc.offset c p

/-- The place of a word of block memory in a chain. -/
def chainPlace (bs : List BlockNo) (loc : WordLoc) : Nat := 32 * bs.findIdx (fun b => b.val == loc.index) + loc.offset

/-- A consumer reads words of a chain, in chain order. -/
def State.meetChain (s : State) (c : Consumer) (bs : List BlockNo) (p : WordLoc → Bool) : State := s.meetBy (chainPlace bs) c p

/-- Whether a bad word is uncorrectable. -/
def BadWord.isUncorrectable (w : BadWord) : Bool :=
  match w.damage with
  | .single => false
  | .uncorrectable _ => true

/-- Whether a word of a set is uncorrectable. -/
def State.broken (s : State) (p : WordLoc → Bool) : Bool :=
  s.check.bad.any (fun w => p w.loc && w.isUncorrectable)

/-- Writing the words of a set makes them sound (R169). -/
def State.freshen (s : State) (p : WordLoc → Bool) : State :=
  s.modCheck (fun c => { c with bad := c.bad.filter (fun w => !p w.loc) })

/-- The words of one item of a store. -/
def itemWords (st : Store) (i : Nat) (loc : WordLoc) : Bool := decide (loc.store = st) && (loc.index == i)

/-- The words of block memory that hold bytes `lo` to `hi - 1` of a chain; none where the range is empty. -/
def chainWords (bs : List BlockNo) (lo hi : Nat) (loc : WordLoc) : Bool :=
  decide (loc.store = .blockMemory) && decide (lo < hi) &&
  (List.range bs.length).any (fun k =>
    match bs[k]? with
    | some b => (b.val == loc.index) && decide (k * 128 + 4 * loc.offset < hi) && decide (lo < k * 128 + 4 * loc.offset + 4)
    | none => false)

/-! ### The memory upsets that come with a command, and the moment a unit falls silent -/

/-- A memory upset takes the place of what was known of its word. (DESIGN CHOICE, safe: log entry 3.) -/
def State.upset (s : State) (u : Upset) : State :=
  s.modCheck (fun c => { c with bad := c.bad.filter (fun w => w.loc != u.loc) ++ [⟨u.loc, u.damage, s.now⟩] })

/-- The unit has stopped sending: the quiet gap begins, unless another station's carrier is still present (R19, R21). -/
def TrunkUnit.silent (u : TrunkUnit) (now : Time) : TrunkUnit :=
  { u with sending := .silent, idleSince := if u.otherCarrier then none else some now, quiet := false }

/-- The device is in RUN. -/
def State.running (s : State) : Bool := decide (s.admin.device = .run)

/-- The device is LOADING. -/
def State.loading (s : State) : Bool := decide (s.admin.device = .loading)

/-- Whether a timer that ends at a time has expired. (DESIGN CHOICE, unsafe: log entry 2.) -/
def expired (now : Time) (t : Option Time) : Bool :=
  match t with
  | some at_ => decide (at_ ≤ now)
  | none => false

end Sys2Proof.Machine
end

