-- ==== Sys2Proof/Machine/Pool.lean ====
section
/-! DEFINITION. The Buffer Pool (chapter 4) and what pool recovery does to its users (R40, R54, R148): blocks, chains, limits,
requests, releases, reclassification, the retire test's verdict and the rebuild. -/

namespace Sys2Proof.Machine

/-! ### Outcomes of transmit records (R104) -/

/-- Counts the outcome of a transmit record, with the proxy accounting of a proxy-acked one (R104). -/
def State.countOutcome {A : Type} (s : State) (r : TransmitRecord A) (o : TxOutcome) : State :=
  s.modEngine (fun q =>
    { q with
      outcomes := q.outcomes.raise o.idx
      proxy :=
        if r.proxyAcked then
          match o.loss with
          | none => { q.proxy with queued := q.proxy.queued - 1, delivered := q.proxy.delivered + 1 }
          | some k => { q.proxy with queued := q.proxy.queued - 1, losses := q.proxy.losses.set k (q.proxy.losses[k] + 1) }
        else q.proxy })

/-! ### Jobs' notices (R136, R149), which recovery also sends -/

/-- The job record of a slot. -/
def State.job (s : State) (k : Slot) : Option Job := s.spool.jobs[k]

/-- The job is in a finished state (R134). -/
def Job.isFinished (j : Job) : Bool :=
  match j.state with
  | .done | .cancelled | .damaged => true
  | _ => false

/-- The job is PRINTING or HELD. -/
def Job.atPrinter (j : Job) : Bool :=
  match j.state with
  | .printing | .held => true
  | _ => false

/-- The job is RECEIVING. -/
def Job.receives (j : Job) : Bool := decide (j.state = .receiving)

/-- Writes the record of a slot; its words are then sound (R169). -/
def State.setJob (s : State) (k : Slot) (j : Option Job) : State :=
  (s.modSpool (fun p => { p with jobs := p.jobs.set k j })).freshen (itemWords .jobRecords k.val)

/-- The record of a slot leaves it: the slot is empty, and a byte in hand is no byte of a record in it. -/
def State.clearSlot (s : State) (k : Slot) : State :=
  (s.setJob k none).modSpool (fun p =>
    { p with inHand := p.inHand.map (fun h => if h.slot = some k then { h with slot := none } else h) })

/-- A job's place in the print order list, counting the head as 1, and 0 when it is not in the list (R136). -/
def queuePosition (order : List Slot) (k : Slot) : Nat :=
  if k ∈ order then order.idxOf k + 1 else 0

/-- The current entry of the job in a slot, carrying `reason` (R136). -/
def State.jobEntry (s : State) (k : Slot) (j : Job) (reason : Reason) : StatusEntry :=
  ⟨j.number, j.state.code, reason.code, j.nextIndex, if j.receives then j.window else 0, queuePosition s.spool.order k,
    j.copiesLeft⟩

/-- A PRINT-STATUS is called for. (DEDUCED, unsafe: log entry 24.) -/
def State.notify (s : State) (dest : Recipient) (es : List StatusEntry) : State :=
  s.modSpool (fun p => { p with outbox := p.outbox ++ [⟨dest, statusPayload es⟩] })

/-- The originator of the job in a slot is given its current entry (R149); none is sent when the originator is absent. -/
def State.notifyJob (s : State) (k : Slot) : State :=
  match s.job k with
  | some j =>
    match j.originator with
    | some n => s.notify (.number n) [s.jobEntry k j j.reason]
    | none => s
  | none => s

/-! ### INIT (R132) -/

/-- An INIT pulse is called for: it begins at once when no byte is in hand, or the one in hand has its stall condition set, and
no pulse is under way; otherwise it is pending (R132, R141). -/
def State.callInit (s : State) : State :=
  s.modSpool (fun p =>
    if (p.inHand.isNone || p.stall) && p.initPulse.isNone then { p with initPulse := some s.now, initPending := false }
    else { p with initPending := true })

/-- The byte in hand has been settled: a pending pulse begins (R132, R141). -/
def State.beginPendingInit (s : State) : State := if s.spool.initPending then s.callInit else s

/-- The job at the printer has ended: no further byte of it is presented, and INIT is called for (R141, R148). -/
def State.stopPrinting (s : State) : State :=
  (s.modSpool (fun p => { p with separatorDue := false })).callInit

/-! ### Job records found uncorrectable (R175) -/

/-- The record that stands in a slot whose record was uncorrectable. What R175 leaves unstated is free within the ranges of R134;
`cap` is SpoolCap, which bounds the next index. (DESIGN CHOICE, safe: log entry 10.) -/
def lostJob (cap : Nat) (now : Time) : Job where
  number := 0
  originator := none
  name := (List.range (1 + Config.lostJobField now 7 % 16)).map (Config.lostJobName now)
  copies := 1 + Config.lostJobField now 0 % 9
  separator := decide (Config.lostJobField now 1 % 2 = 1)
  state := .damaged
  reason := .memory
  nextIndex := Config.lostJobField now 2 % (cap + 1)
  window := 0
  chain := none
  printed := Config.lostJobField now 3
  copiesLeft := Config.lostJobField now 4 % 10
  openTime := Config.lostJobField now 5
  lastActivity := Config.lostJobField now 6
  finished := some now

/-- The job record of a slot, found uncorrectable, becomes DAMAGED, out of the print order, its printing stopped (R148, R175). Its
blocks are the caller's to release. (DEDUCED, unsafe: log entry 66.) -/
def State.loseRecord (s : State) (k : Slot) : State :=
  let atPrinter : Bool := match s.job k with | some j => j.atPrinter | none => false
  let t := s.setJob k (some (lostJob s.cfg.spoolCap s.now))
  let t := (t.modSpool (fun q => { q with order := q.order.filter (· != k) })).raiseSpool .jobsDamaged
  if atPrinter then t.stopPrinting else t

/-- A word of the job record of a slot is uncorrectable. In RELAY-ONLY the job records are read by the scrubber alone (R169). -/
def State.jobBroken (s : State) (k : Slot) : Bool := s.running && s.broken (itemWords .jobRecords k.val)

/-- The words of the job record of a slot are read. -/
def State.meetJob (s : State) (k : Slot) : State := if s.running then s.meet .job (itemWords .jobRecords k.val) else s

/-! ### Pool recovery (R64, R65) -/

/-- A unit's part in pool recovery (R40): the attempt ends with an inverted check, every record is FLUSHED, and a reception is
ended for forwarding. The header staging stays, of a burst that has blocks as of one that has none. (DESIGN CHOICE, unsafe: log entry
55.) -/
def State.recoverUnit (s : State) (x : Side) : State :=
  let t := (s.unit x).queue.foldl (fun t r => t.countOutcome r .flushed) s
  t.modUnit x (fun u =>
    { u with
      queue := []
      rx := u.rx.map (fun r =>
        match r.mode with
        | .full => { r with mode := .countOnly, chain := none }
        | _ => r)
      sending :=
        match u.sending with
        | .attempt began =>
          let sent := min ((s.now - began) / Config.trunkByte) u.lineOut.length
          .cutCheck sent (s.now + 2 * Config.trunkByte)
        | q => q
      lineOut :=
        match u.sending with
        | .attempt began => cutTrunk (u.lineOut.take ((s.now - began) / Config.trunkByte))
        | _ => u.lineOut })

/-- A port's part in pool recovery (R54). A frame in its first bytes, which no command has carried, is a frame being received, and is
then received for its class alone. (DESIGN CHOICE, unsafe: log entry 104.) -/
def State.recoverPort (s : State) (p : PortId) : State :=
  let t := (s.port p).queue.foldl (fun t r => (t.countOutcome r .flushed).raisePort p .flushed) s
  t.modPort p (fun q =>
    { q with
      queue := []
      rx := q.rx.map (fun r =>
        match r.mode with
        | .full => { r with mode := .countOnly, chain := none }
        | _ => r)
      countBefore := s.now
      sending := none
      lastSent := match q.sending with | some _ => some (s.now + 4 * Config.starByte) | none => q.lastSent
      lineOut :=
        match q.sending with
        | some began => cutStar (q.lineOut.take ((s.now - began) / Config.starByte))
        | none => q.lineOut })

/-- A job's part in pool recovery (R148): one that holds blocks becomes DAMAGED, its chain given up to the rebuild. Its record is
read for this, and one found uncorrectable is lost as R175 states. -/
def State.recoverJob (s : State) (k : Slot) : State :=
  let u := s.meetJob k
  if s.jobBroken k then u.loseRecord k
  else
    match u.job k with
    | some j =>
      if j.chain.isSome && !j.isFinished then
        let t := u.setJob k (some { j with state := .damaged, reason := .memory, chain := none, window := 0,
                                           finished := some u.now })
        let t := (t.modSpool (fun p => { p with order := p.order.filter (· != k) })).raiseSpool .jobsDamaged
        let t := t.notifyJob k
        if j.atPrinter then t.stopPrinting else t
      else u
    | none => u

/-- The notice of pool recovery to the pool's users (R64, step 1). The jobs are gone through, and their notices called for, in slot
order (R148). (DESIGN CHOICE, unsafe: log entry 95.) -/
def State.recoveryNotice (s : State) : State :=
  let t := (s.recoverUnit .west).recoverUnit .east
  let t := (List.finRange 6).foldl State.recoverPort t
  let t := (List.finRange 12).foldl State.recoverJob t
  let t := t.modAdmin (fun a => { a with inbox := [] })
  t.modCheck (fun c => { c with test := none, waiting := [] })

/-- The named block joins the retired list, or retire overflows goes up when the list is full (R64, step 2). One that is on the list
already stays RETIRED, full as the list may be. (DESIGN CHOICE, unsafe: log entry 59.) -/
def State.retireNamed (s : State) (b : BlockNo) : State :=
  if s.pool.retired.contains b then s
  else if s.pool.retired.length < Config.retiredList then s.modPool (fun p => { p with retired := p.retired ++ [b] })
  else s.raisePool .retireOverflows

/-- The block that links to `b` in the free list, found by walking from `a` (R63). -/
def predecessor (records : Vector BlockRecord 256) (b : BlockNo) : Nat → BlockNo → Option BlockNo
  | 0, _ => none
  | fuel + 1, a =>
    match records[a].next with
    | some n => if n = b then some a else predecessor records b fuel n
    | none => none

/-- The block record of a block that may be none. -/
def recordWords (b : Option BlockNo) (l : WordLoc) : Bool :=
  match b with
  | some b => itemWords .blockRecords b.val l
  | none => false

/-- The block that links to `b` in the free list of a pool, absent when `b` is its head. -/
def Pool.before (p : Pool) (b : BlockNo) : Option BlockNo :=
  match p.head with
  | some h => if h = b then none else predecessor p.records b 256 h
  | none => none

/-- Takes a FREE block out of the free list where it stands, and makes it RETIRED (R63). -/
def State.retireFree (s : State) (b : BlockNo) : State :=
  (s.modPool (fun p =>
    let after := p.records[b].next
    let before := p.before b
    let records :=
      match before with
      | some a => p.records.set a { p.records[a] with next := after }
      | none => p.records
    { p with
      records := records.set b .retiredRecord
      head := if p.head = some b then after else p.head
      tail := if p.tail = some b then before else p.tail
      free := p.free - 1
      retiredCount := p.retiredCount + 1 })).freshen
    (fun l => itemWords .blockRecords b.val l || recordWords (s.pool.before b) l)

/-- Pool recovery is ordered, naming a block (R64). An order that arrives while a recovery is under way retires the named block
alone (R65). (DESIGN CHOICE, safe: log entry 18.) -/
def State.orderRecovery (s : State) (b : BlockNo) : State :=
  if s.pool.recovering then
    if s.pool.retired.contains b then s.freshen (itemWords .blockRecords b.val)
    else if s.pool.retired.length < Config.retiredList then
      (s.modPool (fun p => { p with retired := p.retired ++ [b] })).retireFree b
    else (s.raisePool .retireOverflows).freshen (itemWords .blockRecords b.val)
  else
    let t := (s.recoveryNotice.retireNamed b)
    (t.modPool (fun p => Pool.rebuilt p.retired p.counters true)).freshen (fun l => decide (l.store = .blockRecords))

/-! ### Reading block records (R169, R175) -/

/-- The uncorrectable block records, other than that of `b`, whose reads had begun before the notice of a recovery ordered now reached
their reader (R65). -/
def State.begunReads (s : State) (b : BlockNo) : List BadWord :=
  s.check.bad.filter (fun w =>
    w.isUncorrectable && decide (w.loc.store = .blockRecords) && decide (w.loc.index < 256) && (w.loc.index != b.val) &&
    Config.readBegun s.now w.loc.index)

/-- A second order of pool recovery: the record found uncorrectable is recorded and its block retired alone (R65). -/
def State.secondOrder (s : State) (w : BadWord) : State := (s.meetWord .pool w).orderRecovery (Fin.ofNat 256 w.loc.index)

/-- A block record is read: a word found uncorrectable orders pool recovery (R175), and reads already begun may order it again (R65).
The pool begins no read of a record during recovery (R64). -/
def State.checkRecord (s : State) (b : BlockNo) : State :=
  if s.pool.recovering then s
  else
    let p := itemWords .blockRecords b.val
    let t := s.meet .pool p
    if s.broken p then (s.begunReads b).foldl State.secondOrder (t.orderRecovery b) else t

/-- The blocks of a chain from one block on, each record read; the second part is absent when a recovery begins on the way. -/
def State.walk : Nat → BlockNo → State → State × Option (List BlockNo)
  | 0, _, s => (s, some [])
  | fuel + 1, b, s =>
    let t := s.checkRecord b
    if t.pool.recovering then (t, none)
    else match t.pool.records[b].next with
      | none => (t, some [b])
      | some n =>
        match State.walk fuel n t with
        | (t', some bs) => (t', some (b :: bs))
        | (t', none) => (t', none)

/-- The blocks of a chain, from the records as they stand. -/
def chainBlocks (records : Vector BlockRecord 256) : Nat → BlockNo → List BlockNo
  | 0, _ => []
  | fuel + 1, b =>
    match records[b].next with
    | none => [b]
    | some n => b :: chainBlocks records fuel n

/-- The blocks of the chain that begins at a block. -/
def State.blocksOf (s : State) (b : BlockNo) : List BlockNo := chainBlocks s.pool.records 256 b

/-! ### The retire test (R172) -/

/-- The test begins: zeros are written into the word. -/
def State.beginTest (s : State) (t : TestTarget) : State :=
  let a := blockAddr t.block (4 * t.word)
  let s' := (((s.store a 0).store (a + 1) 0).store (a + 2) 0).store (a + 3) 0
  s'.modCheck (fun c => { c with test := some (t, s.now) })

/-- The test in hand has ended: the oldest waiting test begins. -/
def State.nextTest (s : State) : State :=
  match s.check.waiting with
  | [] => s.modCheck (fun c => { c with test := none })
  | t :: rest => (s.modCheck (fun c => { c with test := none, waiting := rest })).beginTest t

/-- A block needs the test: it is taken in hand, or waits while another is, and is not tested when 8 wait. -/
def State.needTest (s : State) (t : TestTarget) : State :=
  match s.check.test with
  | none => s.beginTest t
  | some _ =>
    if s.check.waiting.length < Config.waitingTests then s.modCheck (fun c => { c with waiting := c.waiting ++ [t] }) else s

/-- The block is under test, in hand or waiting. -/
def State.underTest (s : State) (b : BlockNo) : Bool :=
  (match s.check.test with | some (t, _) => decide (t.block = b) | none => false) ||
  s.check.waiting.any (fun t => decide (t.block = b))

/-- An allocation of the block ends its test with no verdict (R63). -/
def State.endTest (s : State) (b : BlockNo) : State :=
  let s' := s.modCheck (fun c => { c with waiting := c.waiting.filter (fun t => decide (t.block ≠ b)) })
  match s'.check.test with
  | some (t, _) => if t.block = b then s'.nextTest else s'
  | none => s'

/-! ### Taking blocks (R57 to R59) -/

/-- The held count of a tag. -/
def State.heldCount (s : State) (o : Origin) : Nat := s.pool.held[o.idx]

/-- The cause of a request for `n` blocks being refused, the first condition of R58 that fails; absent when it is granted. -/
def State.refusal (s : State) (n : Nat) (o : Origin) : Option PoolCount :=
  if s.pool.recovering then some .noFree
  else if s.pool.free < n then some .noFree
  else if s.cfg.forwardCap < s.pool.forwardingHeld + n then some .forwardCap
  else if s.cfg.portQuota < s.heldCount o + n then some .quota
  else none

/-- Takes the block at the head of the free list for a tag (R57, R58). -/
def State.takeHead (s : State) (b : BlockNo) (o : Origin) : State :=
  let after := s.pool.records[b].next
  let t := s.modPool (fun p =>
    { p with
      records := p.records.set b ⟨.forwarding, none, false, some (.ingress o)⟩
      head := after
      tail := if after.isNone then none else p.tail
      free := p.free - 1
      forwardingHeld := p.forwardingHeld + 1
      held := p.held.set o.idx (p.held[o.idx] + 1) })
  (t.freshen (itemWords .blockRecords b.val)).endTest b

/-- Sets the next link of a block: its record is written, its other fields kept, and it is not read for that (R58, R61, R169).
(DEDUCED, unsafe: log entry 69.) -/
def State.link (s : State) (b : BlockNo) (n : Option BlockNo) : State :=
  (s.modPool (fun p => { p with records := p.records.set b { p.records[b] with next := n } })).freshen
    (itemWords .blockRecords b.val)

/-- Sets the end mark of a block, whose record is written and not read for that (R58, R169). (DEDUCED, unsafe: log entry 69.) -/
def State.markEnd (s : State) (b : BlockNo) : State :=
  (s.modPool (fun p => { p with records := p.records.set b { p.records[b] with endMark := true } })).freshen
    (itemWords .blockRecords b.val)

/-- The head's record is read and the head taken; a recovery that begins there leaves nothing to take. -/
def State.takeBlock (s : State) (o : Origin) : State × Option BlockNo :=
  match s.pool.head with
  | none => (s, none)
  | some b =>
    let t := s.checkRecord b
    if t.pool.recovering then (t, none) else (t.takeHead b o, some b)

/-- A chain with one block more behind it (R58); the record of its last block is not read. (DEDUCED, unsafe: log entry 69.) -/
def State.growChain (s : State) (c : Option Chain) (b : BlockNo) : State × Chain :=
  match c with
  | none => (s, ⟨b, b, 1⟩)
  | some c => (s.link c.last (some b), ⟨c.first, b, c.count + 1⟩)

/-- A unit's request for one block for the frame whose chain so far is `c` (R58). A refusal raises its counter; a request whose own
read of the head's record orders a recovery is refused NO-FREE. (DESIGN CHOICE, unsafe: log entry 80.) -/
def State.requestBlock (s : State) (o : Origin) (c : Option Chain) : State × Option Chain :=
  match s.refusal 1 o with
  | some cause => (s.raisePool cause, none)
  | none =>
    match s.takeBlock o with
    | (t, none) => (t.raisePool .noFree, none)
    | (t, some b) =>
      let (t', c') := t.growChain c b
      (t', some c')

/-- Takes `n` blocks in list order, linked in that order; none where a recovery begins on the way. (DESIGN CHOICE, unsafe: log entry
80.) -/
def State.takeChain (o : Origin) : Nat → Option Chain → State → State × Option Chain
  | 0, c, s => (s, c)
  | n + 1, c, s =>
    match s.takeBlock o with
    | (t, none) => (t.raisePool .noFree, none)
    | (t, some b) =>
      let (t', c') := t.growChain c b
      State.takeChain o n (some c') t'

/-- A whole-chain request for `n` blocks (R59). -/
def State.requestChain (s : State) (n : Nat) (o : Origin) : State × Option Chain :=
  match s.refusal n o with
  | some cause => (s.raisePool cause, none)
  | none =>
    match State.takeChain o n none s with
    | (t, some c) => (t.markEnd c.last, some c)
    | (t, none) => (t, none)

/-! ### Releases (R60, R62) -/

/-- A block leaves its class: the counts of that class and tag go down (R56, R60). -/
def Pool.leaveClass (p : Pool) (b : BlockNo) : Pool :=
  match p.records[b].cls, p.records[b].tag with
  | .forwarding, some (.ingress o) =>
    { p with forwardingHeld := p.forwardingHeld - 1, held := p.held.set o.idx (p.held[o.idx] - 1) }
  | .forwarding, _ => { p with forwardingHeld := p.forwardingHeld - 1 }
  | .spool, _ => { p with spoolHeld := p.spoolHeld - 1 }
  | .retired, _ => { p with retiredCount := p.retiredCount - 1 }
  | .free, _ => { p with free := p.free - 1 }

/-- A block is appended to the tail of the free list (R57). -/
def Pool.append (p : Pool) (b : BlockNo) : Pool :=
  let records := p.records.set b (.freeRecord none)
  { p with
    records := match p.tail with | some t => records.set t { records[t] with next := some b } | none => records
    head := if p.tail.isNone then some b else p.head
    tail := some b
    free := p.free + 1 }

/-- One block becomes FREE at the tail of the free list (R60): its record is written, and the old tail's, which links to it. (DEDUCED,
unsafe: log entry 67.) -/
def State.freeBlock (s : State) (b : BlockNo) : State :=
  (s.modPool (fun p => (p.leaveClass b).append b)).freshen
    (fun l => itemWords .blockRecords b.val l || recordWords s.pool.tail l)

/-- One block of a released chain: it becomes FREE, or, under the retire test, keeps its class outside any chain until its
verdict (R63). (DESIGN CHOICE, unsafe: log entry 68.) -/
def State.releaseBlock (s : State) (b : BlockNo) : State :=
  if s.underTest b then
    (s.modPool (fun p => { p with records := p.records.set b { p.records[b] with next := none, endMark := false } })).freshen
      (itemWords .blockRecords b.val)
  else s.freeBlock b

/-- The walk of a release, from a block to the one with no next link (R60). It ends where a recovery begins. -/
def State.releaseWalk : Nat → BlockNo → State → State
  | 0, _, s => s
  | fuel + 1, b, s =>
    let t := s.checkRecord b
    if t.pool.recovering then t
    else
      let after := t.pool.records[b].next
      let t' := t.releaseBlock b
      match after with
      | none => t'
      | some n => State.releaseWalk fuel n t'

/-- A chain is released (R60). The pool does not act on a release during recovery (R64). -/
def State.releaseFrom (s : State) (b : BlockNo) : State :=
  if s.pool.recovering then s else State.releaseWalk 256 b s

/-- Releases the chain a reception or a frame holds, if it holds one. -/
def State.releaseChain (s : State) (c : Option Chain) : State :=
  match c with
  | some c => s.releaseFrom c.first
  | none => s

/-- The uncorrectable words of block memory among the bytes `lo` to `hi - 1` of a chain, in chain order, each as a test target and
with its first byte's place in the chain. -/
def State.brokenWords (s : State) (bs : List BlockNo) (lo hi : Nat) : List (BadWord × TestTarget × Nat) :=
  (List.range (32 * bs.length)).filterMap (fun k =>
    match bs[k / 32]? with
    | some b =>
      (s.check.bad.find? (fun w => w.isUncorrectable && decide (w.loc = ⟨.blockMemory, b.val, k % 32⟩) &&
        chainWords bs lo hi w.loc)).map (fun w => (w, ⟨b, k % 32⟩, 4 * k))
    | none => none)

/-- The first of them, as a test target. -/
def State.firstBroken (s : State) (bs : List BlockNo) (lo hi : Nat) : Option TestTarget :=
  (s.brokenWords bs lo hi).head?.map (fun m => m.2.1)

/-- Releases a chain one of whose blocks was met uncorrectable, with that block under test (R63, R172). -/
def State.releaseTesting (s : State) (first : BlockNo) (t : TestTarget) : State := (s.needTest t).releaseFrom first

/-- Every SPOOL block tagged with a slot becomes FREE, in block-number order (R62). -/
def State.releaseSlot (s : State) (k : Slot) : State :=
  (List.finRange 256).foldl (fun t b =>
    let t' := t.checkRecord b
    if t'.pool.recovering then t'
    else if t'.pool.records[b].cls = .spool ∧ t'.pool.records[b].tag = some (.slot k) then t'.releaseBlock b
    else t') s

/-- The job record of a slot is read; one found uncorrectable is lost, and its blocks released by their tags (R62, R175). The spool
change that this is stands in Spool.lean. -/
def State.readJob (s : State) (k : Slot) : State :=
  let t := s.meetJob k
  if s.jobBroken k then (t.loseRecord k).releaseSlot k else t

/-- Every job record is read, in slot order. (DESIGN CHOICE, unsafe: log entry 99.) -/
def State.readJobs (s : State) : State := (List.finRange 12).foldl State.readJob s

/-! ### Reclassification (R61) -/

/-- One FORWARDING block becomes SPOOL for a slot. -/
def State.toSpool (s : State) (k : Slot) (b : BlockNo) : State :=
  (s.modPool (fun p =>
    let q := p.leaveClass b
    { q with records := q.records.set b { q.records[b] with cls := .spool, tag := some (.slot k) }
             spoolHeld := q.spoolHeld + 1 })).freshen (itemWords .blockRecords b.val)

/-- A FORWARDING chain becomes part of a job's chain (R61); `last` is the last block of the job's chain, if it holds one. The
second part tells whether it is granted. The record of `last` is written unread. (DEDUCED, unsafe: log entry 69.)
One whose own reads order a recovery is refused. (DESIGN CHOICE, unsafe: log entry 80.) -/
def State.reclassify (s : State) (c : Chain) (k : Slot) (last : Option BlockNo) : State × Bool :=
  if s.pool.recovering then (s.raisePool .reclass, false)
  else if s.cfg.spoolCap < s.pool.spoolHeld + c.count then (s.raisePool .reclass, false)
  else
    match State.walk 256 c.first s with
    | (t, none) => (t.raisePool .reclass, false)
    | (t, some bs) =>
      let t' := bs.foldl (fun u b => u.toSpool k b) t
      match last with
      | some l => (t'.link l (some c.first), true)
      | none => (t', true)

/-! ### The verdict of the retire test (R63) -/

/-- The walk of the free list from a block to the one that links to `b`, each record read. It ends where a recovery begins. -/
def State.walkToward (b : BlockNo) : Nat → BlockNo → State → State
  | 0, _, s => s
  | fuel + 1, a, s =>
    let t := s.checkRecord a
    if t.pool.recovering then t
    else match t.pool.records[a].next with
      | some n => if n = b then t else State.walkToward b fuel n t
      | none => t

/-- A FREE block whose fault persists leaves the free list, found there by a walk from the head, and is RETIRED (R63). A recovery
that begins on the way has rebuilt the block with the others. -/
def State.retireInPlace (s : State) (b : BlockNo) : State :=
  let t := match s.pool.head with | some h => if h = b then s else State.walkToward b 256 h s | none => s
  if t.pool.recovering then t else (t.modPool (fun p => { p with retired := p.retired ++ [b] })).retireFree b

/-- The verdict on a block under test is applied (R63). Its record is read for its class; a recovery that begins there has ended
the test. -/
def State.applyVerdict (s : State) (b : BlockNo) (persists : Bool) : State :=
  let s := s.checkRecord b
  let room := decide (s.pool.retired.length < Config.retiredList)
  if s.pool.recovering then s
  else if s.pool.records[b].cls = .free then
    if persists then (if room then s.retireInPlace b else s.raisePool .retireOverflows) else s
  else if persists then
    if room then
      (s.modPool (fun p =>
        let q := p.leaveClass b
        { q with records := q.records.set b .retiredRecord, retired := q.retired ++ [b],
                 retiredCount := q.retiredCount + 1 })).freshen (itemWords .blockRecords b.val)
    else (s.raisePool .retireOverflows).freeBlock b
  else s.freeBlock b

/-! ### Completion of transmit records (R26, R51) -/

/-- The head record of a side completes: removed, counted, its chain released (R26). -/
def State.completeHead (s : State) (x : Side) (o : TxOutcome) : State :=
  match (s.unit x).queue with
  | [] => s
  | r :: rest => ((s.modUnit x (fun u => { u with queue := rest })).countOutcome r o).releaseFrom r.head

/-- Every record of a side completes FLUSHED, from the head to the tail (R39). -/
def State.flushUnit (s : State) (x : Side) : State :=
  (s.unit x).queue.foldl (fun t _ => t.completeHead x .flushed) s

/-- The head record of a port completes (R51). -/
def State.completePort (s : State) (p : PortId) (o : TxOutcome) : State :=
  match (s.port p).queue with
  | [] => s
  | r :: rest =>
    let k : PortTotal := match o with | .delivered => .sent | .damaged => .damaged | _ => .flushed
    (((s.modPort p (fun q => { q with queue := rest })).countOutcome r o).raisePort p k).releaseFrom r.head

/-- Every record of a port completes FLUSHED, from the head to the tail (R43). -/
def State.flushPort (s : State) (p : PortId) : State :=
  (s.port p).queue.foldl (fun t _ => t.completePort p .flushed) s

/-! ### Frames in chains -/

/-- The payload length in the stored header of a chain (R55). -/
def State.storedLength (s : State) (bs : List BlockNo) (f : Form) : Nat :=
  match s.loadChain bs (headerBytes f - 2) 2 with
  | [h, l] => (word16 h l).toNat
  | _ => 0

/-- The payload of the frame in a chain. -/
def State.storedPayload (s : State) (bs : List BlockNo) (f : Form) : List Byte :=
  s.loadChain bs (headerBytes f) (s.storedLength bs f)

/-- A block of the junction forms a frame: a whole chain with tag LOCAL, the frame written into it (R59). -/
def State.formChain (s : State) (frame : List Byte) : State × Option Chain :=
  match s.requestChain (blocksFor frame.length) .internal with
  | (t, some c) => (State.storeChain (t.blocksOf c.first) 0 frame t, some c)
  | (t, none) => (t, none)

/-- A copy of a chain of `n` blocks, charged to a tag (R59). Its consumer is COPY: an uncorrectable word releases the copy
(R172), and the words behind it are read too. (DESIGN CHOICE, unsafe: log entry 75.) -/
def State.copyChain (s : State) (c : Chain) (o : Origin) : State × Option Chain :=
  match s.requestChain c.count o with
  | (t, none) => (t, none)
  | (t, some d) =>
    match State.walk 256 c.first t with
    | (t, none) => (t, none)
    | (t, some bs) =>
      let words := chainWords bs 0 (128 * bs.length)
      let t' := t.meetChain .copy bs words
      if t.broken words then (t'.releaseFrom d.first, none)
      else (State.storeChain (t'.blocksOf d.first) 0 (t'.loadChain bs 0 (128 * bs.length)) t', some d)

end Sys2Proof.Machine
end

