-- ==== Sys2Proof/Machine/Spool.lean ====
section
/-! DEFINITION. The Print Spool (chapter 8): job records, receive windows, eviction, the print protocol, printing, and what the
printer's lines do. PRINT-STATUS frames are called for here (`State.notify`) and formed in Sending.lean. -/

namespace Sys2Proof.Machine

/-! ### Windows (R138) -/

/-- The slots whose job is RECEIVING, in slot order. -/
def State.receivers (s : State) : List Slot :=
  (List.finRange 12).filter (fun k => match s.job k with | some j => j.receives | none => false)

/-- The open time of the job in a slot. -/
def State.openedAt (s : State) (k : Slot) : Time := match s.job k with | some j => j.openTime | none => 0

/-- The oldest RECEIVING job: earliest open time, then lower slot (R138). -/
def State.oldestReceiver (s : State) : Option Slot :=
  s.receivers.foldl (fun best k =>
    match best with
    | none => some k
    | some b => if s.openedAt k < s.openedAt b then some k else some b) none

/-- The youngest RECEIVING job: latest open time, then higher slot (R143). -/
def State.youngestReceiver (s : State) : Option Slot :=
  s.receivers.foldl (fun best k =>
    match best with
    | none => some k
    | some b => if s.openedAt b ≤ s.openedAt k then some k else some b) none

/-- The window of the job in a slot, as R138 computes it. -/
def State.windowOf (s : State) (k : Slot) : Nat :=
  receiveWindow s.cfg.spoolCap s.pool.spoolHeld s.receivers.length (decide (s.oldestReceiver = some k))

/-- Every RECEIVING job's window is computed afresh and stored (R143, step 2). -/
def State.computeWindows (s : State) : State :=
  s.receivers.foldl (fun t k =>
    match t.job k with
    | some j => t.setJob k (some { j with window := s.windowOf k })
    | none => t) s

/-! ### A job's end (R134, R141, R148) -/

/-- The job in a slot finishes: its record, its place in the print order, its chain and, if it was PRINTING or HELD, its printing.
`faulty` names the block to put to the retire test, if its chain is given up for an uncorrectable word. -/
def State.finishJob (s : State) (k : Slot) (st : JobState) (r : Reason) (faulty : Option TestTarget) : State :=
  match s.job k with
  | none => s
  | some j =>
    let t := s.setJob k (some { j with state := st, reason := r, chain := none, window := 0, finished := some s.now })
    let t := t.modSpool (fun p => { p with order := p.order.filter (· != k) })
    let t := match j.chain, faulty with
      | some c, some f => t.releaseTesting c.first f
      | some c, none => t.releaseFrom c.first
      | none, _ => t
    if j.atPrinter then t.stopPrinting else t

/-! ### Spool changes (R143) -/

/-- No job is READY, PRINTING or HELD. -/
def State.noneToPrint (s : State) : Bool := s.spool.order.isEmpty

/-- The eviction check applies: tight, the oldest RECEIVING job's window would be 0, and nothing to print (R143, step 1). -/
def State.mustEvict (s : State) : Bool :=
  spoolTight s.cfg.spoolCap s.pool.spoolHeld && decide (spoolRoom s.cfg.spoolCap s.pool.spoolHeld < 4) && s.noneToPrint &&
  !s.receivers.isEmpty

/-- The eviction check, made until it no longer applies. The list gathers the jobs it ends. -/
def State.evict : Nat → List Slot → State → State × List Slot
  | 0, ended, s => (s, ended)
  | fuel + 1, ended, s =>
    if s.mustEvict then
      match s.youngestReceiver with
      | none => (s, ended)
      | some k =>
        if 2 ≤ s.receivers.length then
          State.evict fuel (ended ++ [k]) ((s.finishJob k .cancelled .evicted none).raiseSpool .evictions)
        else (s.finishJob k .cancelled .tooLarge none, ended ++ [k])
    else (s, ended)

/-- A spool change (R143), which reads every job record; `answered` is the slot of the job that is being answered in the same event. The
notices of the jobs that ended come first, in the order they ended, then those of the windows that rose, in slot order. (DESIGN CHOICE,
unsafe: log entry 94.) -/
def State.spoolChange (s : State) (answered : Option Slot) : State :=
  let s := s.readJobs
  let closed := s.receivers.filter (fun k => match s.job k with | some j => decide (j.window = 0) | none => false)
  let (t, ended) := State.evict 13 [] s
  let t := t.computeWindows
  let t := (ended.filter (fun k => decide (answered ≠ some k))).foldl State.notifyJob t
  (t.receivers.filter (fun k =>
      closed.contains k && decide (answered ≠ some k) && (match t.job k with | some j => decide (0 < j.window) | none => false))).foldl
    State.notifyJob t

/-! ### Job records read (R175) -/

/-- The job record of a slot is read; one found uncorrectable is handled as R175 states, its release being a spool change. -/
def State.checkJob (s : State) (k : Slot) : State := if s.jobBroken k then (s.readJob k).spoolChange none else s.readJob k

/-- Every job record is read, in slot order. (DESIGN CHOICE, unsafe: log entry 99.) -/
def State.checkJobs (s : State) : State := (List.finRange 12).foldl State.checkJob s

/-! ### Opening a job (R135, R137) -/

/-- The lowest-numbered empty slot, or else that of the finished record with the earliest finished time (R135). -/
def State.openSlot (s : State) : Option Slot :=
  match (List.finRange 12).find? (fun k => (s.job k).isNone) with
  | some k => some k
  | none =>
    (List.finRange 12).foldl (fun best k =>
      match s.job k with
      | some j =>
        match j.finished, best with
        | some f, none => if j.isFinished then some (k, f) else best
        | some f, some (_, g) => if j.isFinished && decide (f < g) then some (k, f) else best
        | none, _ => best
      | none => best) (none : Option (Slot × Time)) |>.map (·.1)

/-- Some occupied slot holds the job number. -/
def State.numberInUse (s : State) (n : Byte) : Bool :=
  (List.finRange 12).any (fun k => match s.job k with | some j => j.number == n | none => false)

/-- The job-number counter advanced by one, from 255 to 1 (R135). -/
def nextJobNumber (n : Byte) : Byte := if n = 255 then 1 else n + 1

/-- The first value from the counter on that no occupied slot holds (R135). -/
def State.freeJobNumber (s : State) : Nat → Byte → Byte
  | 0, n => n
  | fuel + 1, n => if s.numberInUse n then s.freeJobNumber fuel (nextJobNumber n) else n

/-- The slot whose job has a number; number 0 names no job (R136). -/
def State.slotOf (s : State) (n : Byte) : Option Slot :=
  if n = 0 then none
  else (List.finRange 12).find? (fun k => match s.job k with | some j => j.number == n | none => false)

/-- The separator flag of a request under the separator default (R137). -/
def separatorFlag (cfg : Settings) (request : Byte) : Bool :=
  if request = 2 then true else if request = 1 then false else cfg.separatorDefault != 0

/-- Copies as taken: 0 as 1, and values over 9 as 9 (R137). -/
def copiesTaken (n : Nat) : Nat := if n = 0 then 1 else min n 9

/-- The first test of R137 that a PRINT-OPEN fails, with the reason. -/
def State.openRefusal (s : State) (number : Option Byte) (size : Nat) : Option Reason :=
  if number.isNone then some .noAddress
  else if (match s.lend.table[(1 : EntryNo)] with | some e => (match e.phase with | .bound _ => false | _ => true) | none => true)
  then some .disabled
  else if s.spool.printer = .absent then some .printerAbsent
  else if s.cfg.spoolCap < size then some .tooLarge
  else if s.openSlot.isNone then some .queueFull
  else none

/-- A PRINT-OPEN (R137). -/
def State.printOpen (s : State) (who : Recipient) (number : Option Byte) (o : PrintOpen) : State :=
  match s.openRefusal number o.size, s.openSlot with
  | some r, _ => (s.raiseSpool .openRefusals).notify who [refusedEntry r]
  | none, none => (s.raiseSpool .openRefusals).notify who [refusedEntry .queueFull]
  | none, some k =>
    let t := s.clearSlot k
    let n := t.freeJobNumber 256 t.spool.jobCounter
    let c := copiesTaken o.copies
    let t := t.setJob k (some
      { number := n, originator := number, name := o.name, copies := c, separator := separatorFlag s.cfg o.separator,
        state := .receiving, reason := .none, nextIndex := 0, window := 0, chain := none, printed := 0, copiesLeft := c,
        openTime := s.now, lastActivity := s.now, finished := none })
    let t := t.modSpool (fun p => { p with jobCounter := nextJobNumber n })
    let t := (t.raiseSpool .opensAccepted).spoolChange (some k)
    match t.job k with
    | some j => t.notify who [t.jobEntry k j j.reason]
    | none => t

/-! ### Data, close, cancel, query (R136, R139 to R142) -/

/-- The requester is answered with the current entry of the job in a slot, carrying `reason` if one is given. -/
def State.answerJob (s : State) (who : Recipient) (k : Slot) (reason : Option Reason) : State :=
  match s.job k with
  | some j => s.notify who [s.jobEntry k j (reason.getD j.reason)]
  | none => s

/-- A print data frame is discarded: its chain released and data discarded raised (R139). -/
def State.discardData (s : State) (c : Chain) : State := (s.releaseFrom c.first).raiseSpool .dataDiscarded

/-- A PRINT-DATA for a job number and index, in chain `c` of the form `f` (R136, R139). An accepted frame whose own spool change ends
its job is answered with the entry as it then stands, CANCELLED with the reason EVICTED or TOO-LARGE. (DESIGN CHOICE, unsafe: log
entry 101.) -/
def State.printData (s : State) (who : Recipient) (number : Option Byte) (jobNumber : Byte) (index : Nat) (c : Chain) (f : Form) :
    State :=
  match number with
  | none => (s.releaseFrom c.first).raiseSpool .noAddressDiscards
  | some n =>
    match s.slotOf jobNumber with
    | none => (s.releaseFrom c.first).notify who [noJobEntry jobNumber]
    | some k =>
      match s.job k with
      | none => s.releaseFrom c.first
      | some j =>
        if j.originator ≠ some n then (s.releaseFrom c.first).answerJob who k none
        else if !j.receives then (s.discardData c).answerJob who k none
        else if index < j.nextIndex then (s.discardData c).raiseSpool .dataDuplicates
        else if index ≠ j.nextIndex ∨ j.window = 0 then (s.discardData c).answerJob who k (some .outOfWindow)
        else
          match s.reclassify c k (j.chain.map (·.last)) with
          | (t, false) => (t.discardData c).answerJob who k (some .outOfWindow)
          | (t, true) =>
            let jc : JobChain :=
              match j.chain with
              | some old => ⟨old.first, c.last, old.count + c.count, old.forms ++ [f]⟩
              | none => ⟨c.first, c.last, c.count, [f]⟩
            let t := t.setJob k (some { j with chain := some jc, nextIndex := j.nextIndex + 1, lastActivity := s.now })
            let t := (t.raiseSpool .dataAccepted).spoolChange (some k)
            t.answerJob who k none

/-- A PRINT-CLOSE (R136, R140). -/
def State.printClose (s : State) (who : Recipient) (number : Option Byte) (jobNumber : Byte) (count : Nat) : State :=
  match number with
  | none => s.raiseSpool .noAddressDiscards
  | some n =>
    match s.slotOf jobNumber with
    | none => s.notify who [noJobEntry jobNumber]
    | some k =>
      match s.job k with
      | none => s
      | some j =>
        if j.originator ≠ some n ∨ !j.receives then s.answerJob who k none
        else if count = j.nextIndex then
          let t := s.setJob k (some { j with state := .ready, window := 0 })
          let t := t.modSpool (fun p => { p with order := p.order ++ [k] })
          (t.spoolChange (some k)).answerJob who k none
        else s.answerJob who k (some .incomplete)

/-- The job in a slot is cancelled (R141), unless it is finished. (DEDUCED, unsafe: log entry 51.) -/
def State.cancelSlot (s : State) (k : Slot) (r : Reason) (answered : Option Slot) : State :=
  ((s.finishJob k .cancelled r none).raiseSpool .jobsCancelled).spoolChange answered

/-- A PRINT-CANCEL (R136, R141). -/
def State.printCancel (s : State) (who : Recipient) (number : Option Byte) (jobNumber : Byte) : State :=
  match number with
  | none => s.raiseSpool .noAddressDiscards
  | some n =>
    match s.slotOf jobNumber with
    | none => s.notify who [noJobEntry jobNumber]
    | some k =>
      match s.job k with
      | none => s
      | some j =>
        if j.originator ≠ some n ∨ j.isFinished then s.answerJob who k none
        else (s.cancelSlot k .requested (some k)).answerJob who k none

/-- A PRINT-QUERY (R142). -/
def State.printQuery (s : State) (who : Recipient) (jobNumber : Byte) : State :=
  if jobNumber = 0 then
    s.notify who ((List.finRange 12).filterMap (fun k => (s.job k).map (fun j => s.jobEntry k j j.reason)))
  else
    match s.slotOf jobNumber with
    | some k => s.answerJob who k none
    | none => s.notify who [noJobEntry jobNumber]

/-! ### Losses (R150) -/

/-- The originator of the job in a slot becomes absent. -/
def State.dropOriginator (s : State) (k : Slot) : State :=
  match s.job k with
  | some j => s.setJob k (some { j with originator := none })
  | none => s

/-- The unfinished jobs of an originator, in slot order. -/
def State.jobsOf (s : State) (n : Byte) : List Slot :=
  (List.finRange 12).filter (fun k =>
    match s.job k with | some j => decide (j.originator = some n) && !j.isFinished | none => false)

/-- A RECEIVING job whose originator is lost is CANCELLED (R150). -/
def State.cancelLost (s : State) (k : Slot) : State :=
  if s.receivers.contains k then (s.finishJob k .cancelled .originLost none).raiseSpool .originLosses else s

/-- A loss notice for a number (R150). Every job of it loses its originator before any change is made, so that the spool changes
the cancellations are send no notice to the number; and every cancellation is made before the windows are worked out (DESIGN CHOICE,
unsafe: log entry 71). The jobs are cancelled, and their chains released, in slot order. (DESIGN CHOICE, unsafe: log entry 96.) -/
def State.loseOrigin (s : State) (n : Byte) : State :=
  let s := s.checkJobs
  let jobs := s.jobsOf n
  let ended := jobs.filter s.receivers.contains
  let t := ended.foldl State.cancelLost (jobs.foldl State.dropOriginator s)
  ended.foldl (fun t _ => t.spoolChange none) t

/-! ### The printer's state, holds and resumes (R131, R147) -/

/-- The slot of the job that is PRINTING or HELD, the head of the print order list (R145). -/
def State.atPrinter (s : State) : Option (Slot × Job) :=
  match s.spool.order with
  | [] => none
  | k :: _ =>
    match s.job k with
    | some j => if j.atPrinter then some (k, j) else none
    | none => none

/-- The printer state is taken afresh from the lines, the stall condition and the absent mark (R131); ABSENT while printing is
disabled or the device is not in RUN (R132), and as it was until an INIT pulse has ended since reset (R134). -/
def State.printerNow (s : State) : PrinterState :=
  if !s.running || !s.cfg.printing then .absent
  else if !s.spool.linesTaken then s.spool.printer
  else printerStateOf s.spool.absentMark s.spool.stall s.pins.printer

/-- The printer state is re-derived, and the PRINTING job is held or the HELD job resumed (R131, R147). -/
def State.rederive (s : State) : State :=
  let st := s.printerNow
  let t := s.modSpool (fun p => { p with printer := st })
  match t.atPrinter with
  | none => t
  | some (k, j) =>
    match holdReason st t.spool.stall t.pins.printer with
    | some r =>
      if j.state = .printing then ((t.setJob k (some { j with state := .held, reason := r })).notifyJob k).raiseSpool .holds else t
    | none =>
      if st = .ready ∧ j.state = .held then (t.setJob k (some { j with state := .printing, reason := .none })).notifyJob k else t

/-! ### The bytes of a job (R146) -/

/-- The blocks of a job's chain split into frames at the end marks. -/
def splitFrames (records : Vector BlockRecord 256) : List BlockNo → List BlockNo → List (List BlockNo)
  | acc, [] => if acc.isEmpty then [] else [acc]
  | acc, b :: rest =>
    if records[b].endMark then (acc ++ [b]) :: splitFrames records [] rest else splitFrames records (acc ++ [b]) rest

/-- The frames of a job: the blocks and the header form of each. (DEDUCED, safe: log entry 27.) The links and end marks are followed
without a checked read of the block records. (DESIGN CHOICE, unsafe: log entry 74.) -/
def State.jobFrames (s : State) (j : Job) : List (List BlockNo × Form) :=
  match j.chain with
  | none => []
  | some c => (splitFrames s.pool.records [] (s.blocksOf c.first)).zip c.forms

/-- The data bytes of a frame: its payload less the job number and index. -/
def State.frameData (s : State) (f : List BlockNo × Form) : Nat := s.storedLength f.1 f.2 - 3

/-- The data bytes of a job. The stored lengths of its frames are taken without a checked read. (DESIGN CHOICE, unsafe: log
entry 74.) -/
def State.jobLength (s : State) (j : Job) : Nat := (s.jobFrames j).foldl (fun n f => n + s.frameData f) 0

/-- The frame that holds data byte `p` of a job, and the byte's place in that frame. The stored lengths of the frames passed over
are taken without a checked read. (DESIGN CHOICE, unsafe: log entry 74.) -/
def State.locate (s : State) : List (List BlockNo × Form) → Nat → Option (List BlockNo × Form × Nat)
  | [], _ => none
  | f :: rest, p =>
    if p < s.frameData f then some (f.1, f.2, headerBytes f.2 + 3 + p) else State.locate s rest (p - s.frameData f)

/-- The words read to find data byte `i` of a frame: those of its stored length, and the byte's own. (DESIGN
CHOICE, unsafe: log entry 74.) -/
def dataWords (bs : List BlockNo) (f : Form) (i : Nat) (loc : WordLoc) : Bool :=
  chainWords bs (headerBytes f - 2) (headerBytes f) loc || chainWords bs i (i + 1) loc

/-- An INIT pulse is pending or under way (R132). -/
def State.initBusy (s : State) : Bool := s.spool.initPending || s.spool.initPulse.isSome

/-- A byte of the job in a slot is placed on the data lines with a STROBE (R133). -/
def State.present (s : State) (k : Slot) (b : Byte) (separator : Bool) : State :=
  s.modSpool (fun p => { p with inHand := some ⟨b, separator, some k⟩, byteTimer := some (s.now + Config.byteTimer), dataLines := b })

/-- The job in a slot has printed in full (R146), its own notice ahead of those of the spool change. (DESIGN CHOICE, unsafe: log entry
100.) -/
def State.jobDone (s : State) (k : Slot) : State :=
  match s.job k with
  | none => s
  | some j =>
    let t := s.setJob k (some { j with state := .done, reason := .none, chain := none, window := 0, finished := some s.now })
    let t := t.modSpool (fun p => { p with order := p.order.filter (· != k), separatorDue := false })
    let t := match j.chain with | some c => t.releaseFrom c.first | none => t
    ((t.raiseSpool .jobsDone).notifyJob k).spoolChange none

/-- A copy of the job in a slot is complete: copies left goes down, and the next copy begins or the job is DONE (R146). A copy of
no bytes is counted off at once. -/
def State.copyEnd (k : Slot) : Nat → State → State
  | 0, s => s
  | fuel + 1, s =>
    match s.job k with
    | none => s
    | some j =>
      let left := j.copiesLeft - 1
      let t := s.setJob k (some { j with copiesLeft := left, printed := if left = 0 then j.printed else 0 })
      if left = 0 then t.jobDone k
      else if 0 < s.jobLength j then t.modSpool (fun p => { p with separatorDue := false })
      else if j.separator then t.modSpool (fun p => { p with separatorDue := true })
      else State.copyEnd k fuel t

/-- The job in a slot becomes DAMAGED for an uncorrectable block read while printing (R148), its own notice ahead of those of the spool
change. (DESIGN CHOICE, unsafe: log entry 100.) -/
def State.damageJob (s : State) (k : Slot) (f : Option TestTarget) : State :=
  (((s.finishJob k .damaged .memory f).raiseSpool .jobsDamaged).notifyJob k).spoolChange none

end Sys2Proof.Machine
end

