-- ==== Sys2Proof/Machine/Sending.lean ====
section
/-! DEFINITION. Placing transmit records in queues (R18, R51, R87, R92, R97), the recent-broadcasts list (R95), and the bytes a
unit puts on its line for a record (R20, R52). -/

namespace Sys2Proof.Machine

/-! ### Placement -/

/-- A record as the engine fills it in at placement (R87). -/
def newRecord {A : Type} (c : Chain) (form : Form) (asStored : Bool) (length payload : Nat) (dest src : A) (kind seq : Byte)
    (origin : Origin) (cls : QueueClass) (proxyAcked : Bool) : TransmitRecord A where
  head := c.first
  blocks := c.count
  form := form
  asStored := asStored
  length := length
  payload := payload
  dest := dest
  src := src
  kind := kind
  seq := seq
  origin := origin
  cls := cls
  proxyAcked := proxyAcked
  collisions := 0
  ackMisses := 0
  busyCount := 0
  begun := false
  phase := .due

/-- The queue with a record added at the place its class gives it (R18): a current record stays at the head, waiting control-class
records stand ahead of waiting ordinary ones. -/
def insertByClass (q : List TrunkRecord) (r : TrunkRecord) : List TrunkRecord :=
  let current := (q.take 1).filter (·.begun)
  let waiting := q.drop current.length
  match r.cls with
  | .ordinary => q ++ [r]
  | .control =>
    current ++ waiting.filter (fun w => decide (w.cls = .control)) ++ [r] ++ waiting.filter (fun w => decide (w.cls = .ordinary))

/-- The proxy accounting of a placement (R104). -/
def State.countPlaced {A : Type} (s : State) (r : TransmitRecord A) : State :=
  if r.proxyAcked then
    s.modEngine (fun q => { q with proxy := { q.proxy with acked := q.proxy.acked + 1, queued := q.proxy.queued + 1 } })
  else s

/-- A placement in a side transmit queue; the second part is whether it is taken (R18, R40). -/
def State.placeTrunk (s : State) (x : Side) (r : TrunkRecord) : State × Bool :=
  if (s.unit x).queue.length < Config.sideQueue ∧ (s.side x).state = .joined ∧ s.pool.recovering = false then
    ((s.modUnit x (fun u => { u with queue := insertByClass u.queue r })).countPlaced r, true)
  else (s, false)

/-- A placement in a star transmit queue (R51, R54). -/
def State.placeStar (s : State) (p : PortId) (r : StarRecord) : State × Bool :=
  if (s.port p).queue.length < Config.starQueue ∧ (s.port p).state = .up ∧ s.pool.recovering = false then
    ((s.modPort p (fun q => { q with queue := q.queue ++ [r] })).countPlaced r, true)
  else (s, false)

/-- A placement the engine is to make; the chain it takes is settled when it is made. -/
inductive Placement where
  | trunk (x : Side) (r : TrunkRecord)
  | star (p : PortId) (r : StarRecord)
deriving DecidableEq, Repr

/-- Makes a placement with a chain. -/
def State.place (s : State) (t : Placement) (c : Chain) : State × Bool :=
  match t with
  | .trunk x r => s.placeTrunk x { r with head := c.first, blocks := c.count }
  | .star p r => s.placeStar p { r with head := c.first, blocks := c.count }

/-- What came of a set of placements: how many were taken, and how many were refused (a refused copy among them). -/
structure Placed where
  taken : Nat
  refused : Nat
deriving DecidableEq, Repr

/-- The placements of one frame, in order (R97): the first that is taken takes the frame's own chain `c`, each later one a copy
charged to `tag`. When no placement takes the chain it is released (R96, R100). `own` is whether the chain is still free. -/
def State.placeAll (c : Chain) (tag : Origin) : List Placement → Bool → Placed → State → State × Placed
  | [], own, n, s => (if own then s.releaseFrom c.first else s, n)
  | t :: rest, own, n, s =>
    if own then
      match s.place t c with
      | (s', true) => State.placeAll c tag rest false { n with taken := n.taken + 1 } s'
      | (s', false) => State.placeAll c tag rest true { n with refused := n.refused + 1 } (s'.raiseDrop .placement)
    else
      match s.copyChain c tag with
      | (s', none) => State.placeAll c tag rest false { n with refused := n.refused + 1 } (s'.raiseDrop .copy)
      | (s', some d) =>
        match s'.place t d with
        | (s'', true) => State.placeAll c tag rest false { n with taken := n.taken + 1 } s''
        | (s'', false) =>
          State.placeAll c tag rest false { n with refused := n.refused + 1 } ((s''.raiseDrop .placement).releaseFrom d.first)

/-- The UP star ports, in port order. -/
def State.upPorts (s : State) : List PortId := (List.finRange 6).filter (fun p => decide ((s.port p).state = .up))

/-! ### The recent-broadcasts list (R95) -/

/-- A broadcast is a repeat: its source, sequence and kind equal an entry. -/
def State.isRepeat (s : State) (src seq kind : Byte) : Bool :=
  s.engine.broadcasts.any (fun e => (e.src == src) && (e.seq == seq) && (e.kind == kind))

/-- An entry is made at the young end; a matching one is not renewed, and of 33 the oldest is removed first. -/
def State.enterBroadcast (s : State) (src seq kind : Byte) : State :=
  if s.isRepeat src seq kind then s
  else s.modEngine (fun q =>
    let l := if q.broadcasts.length < Config.broadcastList then q.broadcasts else q.broadcasts.drop 1
    { q with broadcasts := l ++ [⟨src, seq, kind, s.now⟩] })

/-! ### What goes out on the line -/

/-- The bytes of a trunk record's frame, from the chain's blocks (R20, R87). -/
def State.trunkLine (s : State) (r : TrunkRecord) (bs : List BlockNo) : List Byte :=
  if r.asStored then s.loadChain bs 0 r.length
  else
    trunkFrame ⟨r.dest, r.src, r.kind, r.seq, BitVec.ofNat 16 r.payload⟩ (s.loadChain bs (headerBytes r.form) r.payload)

/-- The bytes of a star record's frame (R52, R87). -/
def State.starLine (s : State) (r : StarRecord) (bs : List BlockNo) : List Byte :=
  if r.asStored then s.loadChain bs 0 r.length
  else
    starFrame ⟨r.dest, r.src, r.kind, r.seq, BitVec.ofNat 16 r.payload⟩ (s.loadChain bs (headerBytes r.form) r.payload)

/-- The bytes of the chain that a sender reads: the whole frame as stored, or the payload behind the stored header (R87). -/
def TransmitRecord.readRange {A : Type} (r : TransmitRecord A) : Nat × Nat :=
  if r.asStored then (0, r.length) else (headerBytes r.form, headerBytes r.form + r.payload)

/-- How many bytes of the line precede the word at chain byte `i`; `header` is the bytes of the header sent. -/
def linePlace {A : Type} (r : TransmitRecord A) (header i : Nat) : Nat :=
  if r.asStored then i else header + (i - headerBytes r.form)

/-- The first word of a record's frame that the sender found uncorrectable: it was struck before the sender reached it (R27, R52).
`header` is the bytes of the header sent, `byteTime` the time of a byte on the line. (DESIGN CHOICE, unsafe: log entry 39.) -/
def State.metBroken {A : Type} (s : State) (r : TransmitRecord A) (header : Nat) (byteTime began : Time) :
    Option (BadWord × TestTarget × Nat) :=
  let bs := s.blocksOf r.head
  let range := r.readRange
  (s.brokenWords bs range.1 range.2).find? (fun m => decide (m.1.struck ≤ began + byteTime * linePlace r header m.2.2))

end Sys2Proof.Machine
end

