-- ==== Sys2Proof/Machine/Lend.lean ====
section
/-! DEFINITION. The Alias Unit (chapter 7) with the Station Directory's records and the Alias Unit's writes to them (R69, R73, R77 to
R80), and the repair of directory records, alias entries and roster entries found uncorrectable (R173 to R175). -/

namespace Sys2Proof.Machine

/-! ### Alias entries (R107) -/

/-- The number field of an entry, where its state has one. -/
def AliasPhase.number : AliasPhase → Option Byte
  | .unbound | .failed _ => none
  | .probing n _ | .bound n | .held n _ | .conflict n => some n

/-- The number an entry holds in BOUND or HELD. -/
def AliasPhase.holds : AliasPhase → Option Byte
  | .bound n | .held n _ => some n
  | _ => none

/-- The number of a BOUND entry. -/
def AliasPhase.boundNumber : AliasPhase → Option Byte
  | .bound n => some n
  | _ => none

/-- The entry is HELD. -/
def AliasPhase.isHeld : AliasPhase → Bool
  | .held _ _ => true
  | _ => false

/-- The entry is PROBING. -/
def AliasPhase.isProbing : AliasPhase → Bool
  | .probing _ _ => true
  | _ => false

/-- An entry of the alias table. -/
def State.entry (s : State) (i : EntryNo) : Option AliasEntry := s.lend.table[i]

/-- Writes an entry of the alias table; its words are then sound (R169). -/
def State.setEntry (s : State) (i : EntryNo) (e : Option AliasEntry) : State :=
  (s.modLend (fun l => { l with table := l.table.set i e })).freshen (itemWords .aliasTable i.val)

/-- The number entry `i` has when it is BOUND. -/
def State.boundNumber (s : State) (i : EntryNo) : Option Byte := (s.entry i).bind (fun e => e.phase.boundNumber)

/-- The number entry `i` holds in BOUND or HELD. -/
def State.lentNumber (s : State) (i : EntryNo) : Option Byte := (s.entry i).bind (fun e => e.phase.holds)

/-- The entry that holds a number in BOUND or HELD. -/
def State.holderOf (s : State) (n : Byte) (left : List EntryNo) : Option (EntryNo × AliasEntry) :=
  (List.finRange 32).findSome? (fun i =>
    if left.contains i then none
    else match s.entry i with
      | some e => if e.phase.holds = some n then some (i, e) else none
      | none => none)

/-- An index joins the tail of the claim queue, unless it is in the queue already (R112). -/
def State.joinClaims (s : State) (i : EntryNo) : State :=
  if s.lend.claims.contains i then s else s.modLend (fun l => { l with claims := l.claims ++ [i] })

/-- The location of an entry's record: LOCAL for entries 0 and 1, the star port of a node (R77). -/
def AliasEntry.location (e : AliasEntry) : Option PortId :=
  match e.client with
  | .starNode => e.port
  | _ => none

/-- An entry is freed (R109): cleared, out of the claim queue, and its node out of the node list. -/
def State.freeEntry (s : State) (i : EntryNo) : State :=
  let t := (s.setEntry i none).modLend (fun l => { l with claims := l.claims.filter (· != i) })
  (List.finRange 6).foldl (fun t p =>
    t.modPort p (fun q => { q with nodes := q.nodes.filter (fun n => decide (n.entry ≠ some i)) })) t

/-! ### Directory records (R68, R69, R73) -/

/-- The record of a number. -/
def State.dir (s : State) (n : Byte) : Option DirRecord := s.directory.records[n.toNat]'n.isLt

/-- Writes the record of a number; its words are then sound (R169). -/
def State.setDir (s : State) (n : Byte) (r : Option DirRecord) : State :=
  ({ s with directory := { s.directory with records := s.directory.records.set n.toNat r n.isLt } } : State).freshen
    (itemWords .directory n.toNat)

/-- The numbers that have a record, 1 to 254 (R68). -/
def stationNumbers : List Byte := (List.range 254).map (fun k => BitVec.ofNat 8 (k + 1))

/-- The record is quarantined (R69). -/
def DirRecord.quarantined (r : DirRecord) : Bool := r.quarantine.isSome

/-- The record is OWN-ALIAS. -/
def DirRecord.isOwn (r : DirRecord) : Bool := match r.holder with | .own _ _ _ => true | _ => false

/-- The record is LEGACY. -/
def DirRecord.isLegacy (r : DirRecord) : Bool := match r.holder with | .legacy _ => true | _ => false

/-- The side of a LEGACY or REMOTE-ALIAS record. -/
def DirRecord.side (r : DirRecord) : Option Side :=
  match r.holder with
  | .legacy x | .remote x _ _ => some x
  | .own _ _ _ => none

/-- The identifier of a record, where its kind has one. -/
def DirRecord.ident (r : DirRecord) : Option Ident :=
  match r.holder with
  | .legacy _ => none
  | .remote _ i _ | .own _ i _ => some i

/-- The record is owned by a peer. -/
def DirRecord.ownedBy (r : DirRecord) (peer : Ident) : Bool :=
  match r.holder with
  | .remote _ _ p => p == peer
  | _ => false

/-- A present record with no moves counted. -/
def freshRecord (h : Holder) (now : Time) : DirRecord := ⟨h, now, 0, none, none⟩

/-- A move counted at `now` on an unquarantined record (R73). -/
def countMove (cfg : Settings) (now : Time) (r : DirRecord) : DirRecord :=
  let opens := match r.windowStart with | none => true | some w => decide (w + Config.moveWindow ≤ now)
  let moves := if opens then 1 else satUp 255 r.moves
  { r with moves := moves
           windowStart := if opens then some now else r.windowStart
           quarantine := if moves = Config.quarantineMoves then some (now + cfg.quarantineTime * Config.sec) else r.quarantine }

/-- A counted move is written, with the moves and quarantines counters (R73, R85). -/
def State.setMoved (s : State) (n : Byte) (r : DirRecord) : State :=
  let m := countMove s.cfg s.now r
  let t := (s.setDir n (some m)).raiseDir .moves
  if m.quarantined then t.raiseDir .quarantines else t

/-! ### The Alias Unit's requests to the directory (R77)

A Relocate, Remove or Yield is made to a record that has been read before it (`State.checkDir`), so that an uncorrectable one is
rebuilt first (R173). A Bind replaces the whole record and is made unread. (DESIGN CHOICE, unsafe: log entry 89.) -/

/-- Bind: replaces whatever record was present, unread, so that a bad word of it is made good unrecorded. (DESIGN CHOICE, unsafe: log
entry 89.) -/
def State.dirBind (s : State) (n : Byte) (i : EntryNo) (e : AliasEntry) : State :=
  s.setDir n (some (freshRecord (.own e.location e.ident i) s.now))

/-- Relocate: the location of an OWN-ALIAS record changes. -/
def State.dirRelocate (s : State) (n : Byte) (p : PortId) : State :=
  match s.dir n with
  | some ⟨.own _ ident i, h, m, w, q⟩ => s.setDir n (some ⟨.own (some p) ident i, h, m, w, q⟩)
  | _ => s.raiseDir .refusedWrites

/-- Remove: an OWN-ALIAS record becomes absent. (DEDUCED, unsafe: log entry 31.) -/
def State.dirRemove (s : State) (n : Byte) : State :=
  match s.dir n with
  | some r => if r.isOwn then s.setDir n none else s.raiseDir .refusedWrites
  | none => s.raiseDir .refusedWrites

/-- Yield: an OWN-ALIAS record becomes LEGACY at a side, or REMOTE-ALIAS of a peer there. `peer` is the client identifier and the
peer's junction identifier. -/
def State.dirYield (s : State) (n : Byte) (x : Side) (peer : Option (Ident × Ident)) : State :=
  match s.dir n with
  | some r =>
    if r.isOwn then
      s.setDir n (some (freshRecord (match peer with | some (c, j) => .remote x c j | none => .legacy x) s.now))
    else s.raiseDir .refusedWrites
  | none => s.raiseDir .refusedWrites

/-- Which request the giving up of a number makes (R111). -/
inductive GiveUp where
  | remove
  | yield (x : Side) (peer : Option (Ident × Ident))
deriving DecidableEq, Repr

/-! ### Frames the unit sends (R110, R103) -/

/-- Forms a junction frame and has it placed on each named side that is JOINED; the second part is whether it is sent. (DEDUCED, unsafe: log entry 30.) -/
def State.sendLend (s : State) (kind : Kind) (src : Byte) (payload : List Byte) (sides : List Side) : State × Bool :=
  let named := sides.filter s.joined
  if named.isEmpty then (s, false)
  else
    let seq := s.lend.seq
    let h : TrunkHeader := ⟨255, src, kind.code, seq, BitVec.ofNat 16 payload.length⟩
    match s.formChain (trunkFrame h payload) with
    | (t, none) => (t.raiseLend .notFormed, false)
    | (t, some c) =>
      let t := t.modLend (fun l => { l with seq := l.seq + 1 })
      let cls : QueueClass := match kind with | .announce => .ordinary | _ => .control
      let r : TrunkRecord := newRecord c .trunk false (trunkFrameLength payload.length) payload.length 255 src kind.code
        seq .internal cls false
      let (t, n) := State.placeAll c .internal (named.map (fun x => .trunk x r)) true ⟨0, 0⟩ t
      let t := (List.range n.refused).foldl (fun t _ => t.raiseLend .placementsRefused) t
      if 0 < n.taken then (t.enterBroadcast src seq kind.code, true) else (t, false)

/-- Both sides, WEST first: where both are JOINED, WEST takes the chain and EAST the copy (R103, R110). (DESIGN CHOICE, unsafe: log
entry 70.) -/
def bothSides : List Side := [.west, .east]

/-- A RELEASE of a number held by a client. -/
def State.sendRelease (s : State) (n : Byte) (client : Ident) : State :=
  (s.sendLend .release n (lendPayload ⟨n, client, none⟩) bothSides).1

/-- A number is given up (R111): the directory's record is rewritten, a RELEASE is formed, and the Print Spool is handed a loss
notice. The entry's own next state is the caller's. -/
def State.relinquish (s : State) (n : Byte) (client : Ident) (g : GiveUp) : State :=
  let t := match g with
    | .remove => s.dirRemove n
    | .yield x peer => s.dirYield n x peer
  (t.sendRelease n client).loseOrigin n

/-! ### Repair of records and entries found uncorrectable (R173, R174) -/

/-- An entry with no number and nothing tried. -/
def unboundEntry (client : ClientKind) (ident : Ident) (port : Option PortId) : AliasEntry :=
  ⟨client, ident, port, .unbound, 0, 0, 0⟩

/-- The client kind of an entry's index (R107). -/
def clientKindOf (i : EntryNo) : ClientKind := if i = 0 then .junction else if i = 1 then .printer else .starNode

/-- The identifier of an entry's client, that of a star node being `node` (R174). -/
def State.clientIdent (s : State) (i : EntryNo) (node : Ident) : Ident :=
  if i = 0 then s.cfg.baseId.getD 0 else if i = 1 then s.cfg.printerId.getD 0 else node

/-- Alias entry `i`, found uncorrectable, is rewritten from the directory's record that names it, outside the numbers `left`
(R174). -/
def State.rebuildEntry (s : State) (i : EntryNo) (left : List Byte) : State :=
  let named := stationNumbers.findSome? (fun n =>
    if left.contains n then none
    else match s.dir n with
      | some ⟨.own loc ident k, _, _, _, _⟩ => if k = i then some (n, loc, ident) else none
      | _ => none)
  match named with
  | some (n, loc, ident) =>
    let client := s.clientIdent i ident
    let t := s.setEntry i (some (unboundEntry (clientKindOf i) client (if clientKindOf i = .starNode then loc else none)))
    let t := t.relinquish n client .remove
    match clientKindOf i, loc with
    | .starNode, some p => if (t.port p).state = .up then t.joinClaims i else t.freeEntry i
    | .starNode, none => t.freeEntry i
    | _, _ => t.joinClaims i
  | none =>
    match clientKindOf i with
    | .starNode => s.freeEntry i
    | .junction =>
      if s.running then (s.setEntry i (some (unboundEntry .junction (s.clientIdent i 0) none))).joinClaims i
      else s.setEntry i none
    | .printer =>
      if s.running && s.cfg.printing then (s.setEntry i (some (unboundEntry .printer (s.clientIdent i 0) none))).joinClaims i
      else s.setEntry i none

/-- What is read: the directory record of a number, or an alias entry. -/
inductive Repairable where
  | record (n : Byte)
  | entry (i : EntryNo)
deriving DecidableEq, Repr

/-- A directory record or alias entry is read, and rebuilt when a word of it is uncorrectable (R173, R174). A rebuild reads the
other store, with the item under repair left out of the question: `leftD` and `leftA` are those left out. In RELAY-ONLY the alias
table is read by the scrubber alone (R169). The question goes through every item of the other store. (DESIGN CHOICE, unsafe: log
entry 77.) -/
def State.repair : Nat → Repairable → List Byte → List EntryNo → State → State
  | 0, _, _, _, s => s
  | fuel + 1, .record n, leftD, leftA, s =>
    let p := itemWords .directory n.toNat
    let t := s.meet .directory p
    if t.broken p then
      let t := t.freshen p
      let t := (List.finRange 32).foldl (fun t i =>
        if leftA.contains i then t else State.repair fuel (.entry i) (n :: leftD) leftA t) t
      match t.holderOf n leftA with
      | some (i, e) => t.setDir n (some (freshRecord (.own e.location e.ident i) t.now))
      | none => t.setDir n none
    else t
  | fuel + 1, .entry i, leftD, leftA, s =>
    if !s.running then s
    else
      let p := itemWords .aliasTable i.val
      let t := s.meet .lending p
      if t.broken p then
        let t := t.freshen p
        let t := stationNumbers.foldl (fun t n =>
          if leftD.contains n then t else State.repair fuel (.record n) leftD (i :: leftA) t) t
        t.rebuildEntry i leftD
      else t

/-- The directory record of a number is read. -/
def State.checkDir (s : State) (n : Byte) : State := State.repair (s.check.bad.length + 1) (.record n) [] [] s

/-- Every directory record is read, from number 1 up. (DESIGN CHOICE, unsafe: log entry 99.) -/
def State.checkDirAll (s : State) : State := stationNumbers.foldl State.checkDir s

/-- An alias entry is read. -/
def State.checkEntry (s : State) (i : EntryNo) : State := State.repair (s.check.bad.length + 1) (.entry i) [] [] s

/-- Every alias entry is read, from entry 0 up. (DESIGN CHOICE, unsafe: log entry 99.) -/
def State.checkEntries (s : State) : State := (List.finRange 32).foldl State.checkEntry s

/-! ### Identifier lookup (R80) -/

/-- The better of two matches of a lookup: OWN-ALIAS first, then the latest last heard, then the lower number. -/
def betterMatch (a b : Byte × DirRecord) : Byte × DirRecord :=
  if a.2.isOwn then a
  else if b.2.isOwn then b
  else if a.2.lastHeard < b.2.lastHeard then b
  else a

/-- The number an identifier holds, with its record (R80). -/
def State.lookup (s : State) (ident : Ident) : Option (Byte × DirRecord) :=
  (stationNumbers.filterMap (fun n =>
    match s.dir n with
    | some r => if r.ident = some ident then some (n, r) else none
    | none => none)).foldl (fun best m => match best with | none => some m | some b => some (betterMatch b m)) none

/-! ### The peer roster (R128, R175) -/

/-- A roster entry. -/
def State.peer (s : State) (j : RosterNo) : Option RosterEntry := s.lend.roster[j]

/-- Writes a roster entry; its words are then sound (R169). -/
def State.setPeer (s : State) (j : RosterNo) (e : Option RosterEntry) : State :=
  (s.modLend (fun l => { l with roster := l.roster.set j e })).freshen (itemWords .roster j.val)

/-- A peer has left the roster: its REMOTE-ALIAS records are removed (R79), and its loop watch leaves the list (R160). -/
def State.peerLeft (s : State) (ident : Ident) : State :=
  let t := s.modHealth (fun h => { h with watches := h.watches.filter (fun w => w.peer != ident) })
  stationNumbers.foldl (fun t n =>
    let t := t.checkDir n
    match t.dir n with
    | some r => if r.ownedBy ident then (t.setDir n none).raiseDir .upkeepRemovals else t
    | none => t) t

/-- A roster entry is read; one found uncorrectable is removed, its peer's leaving reported when the words of its junction
identifier are sound (R175). In RELAY-ONLY the roster is read by the scrubber alone (R169). -/
def State.checkPeer (s : State) (j : RosterNo) : State :=
  if !s.running then s
  else
    let p := itemWords .roster j.val
    let t := s.meet .roster p
    if t.broken p then
      let identLost := t.broken (fun l => p l && Config.rosterIdentWord l.offset)
      match t.peer j with
      | some e => let t := t.setPeer j none; if identLost then t else t.peerLeft e.ident
      | none => t.setPeer j none
    else t

/-- Every roster entry is read, from entry 0 up. (DESIGN CHOICE, unsafe: log entry 99.) -/
def State.checkPeers (s : State) : State := (List.finRange 16).foldl State.checkPeer s

/-- The index of a peer's roster entry. -/
def State.peerIndex (s : State) (ident : Ident) : Option RosterNo :=
  (List.finRange 16).find? (fun j => match s.peer j with | some e => e.ident == ident | none => false)

/-- The later of an entry's last-heard times, one more than it, 0 when it has none. -/
def RosterEntry.lastHeard (e : RosterEntry) : Nat :=
  max (match e.heard.west with | some t => t + 1 | none => 0) (match e.heard.east with | some t => t + 1 | none => 0)

/-- The roster entry whose later last heard is the oldest, of two as old the one of the lower index. (DESIGN CHOICE, unsafe: log
entry 63.) -/
def State.stalestPeer (s : State) : Option RosterNo :=
  ((List.finRange 16).foldl (fun best j =>
    match s.peer j with
    | some e =>
      match best with
      | none => some (j, e.lastHeard)
      | some (_, h) => if e.lastHeard < h then some (j, e.lastHeard) else best
    | none => best) (none : Option (RosterNo × Nat))).map (·.1)

/-- A peer's roster entry is made or brought up to date from its ANNOUNCE (R128). -/
def State.enterPeer (s : State) (a : Announce) (x : Side) (seq : Byte) : State :=
  match s.peerIndex a.junction with
  | some j =>
    match s.peer j with
    | some e =>
      s.setPeer j (some { e with heard := Sides.set e.heard x (some s.now), seq := Sides.set e.seq x (some seq),
                                 number := a.number, printer := a.printer })
    | none => s
  | none =>
    let e : RosterEntry := ⟨a.junction, a.number, Sides.set ⟨none, none⟩ x (some s.now), Sides.set ⟨none, none⟩ x (some seq), false,
      a.printer⟩
    let t :=
      if (List.finRange 16).all (fun j => (s.peer j).isSome) then
        match s.stalestPeer with
        | some j =>
          match s.peer j with
          | some old => ((s.setPeer j none).peerLeft old.ident).raiseLend .rosterReplacements
          | none => s
        | none => s
      else s
    match (List.finRange 16).find? (fun j => (t.peer j).isNone) with
    | some j => t.setPeer j (some e)
    | none => t

/-! ### Announcing (R126) -/

/-- The ANNOUNCE of the table as it stands (R10, R126). -/
def State.announceOf (s : State) : Announce where
  junction := s.cfg.baseId.getD 0
  number := (s.boundNumber 0).getD 0
  printer := if s.cfg.printing then some ((s.lentNumber 1).getD 0, s.spool.printer.code) else none
  entries := (List.finRange 32).filterMap (fun i =>
    if i = 0 then none
    else match s.entry i with
      | some e => e.phase.holds.map (fun n => ⟨n, e.ident, e.phase.isHeld⟩)
      | none => none)

/-- The lowest number of a list, 0 of none. -/
def lowestNumber (ns : List Byte) : Byte :=
  ns.foldl (fun best n => if best = 0 ∨ n < best then n else best) 0

/-- An ANNOUNCE is formed for sides; it is not when it would have neither a junction number nor a listed number (R3, R126). -/
def State.announce (s : State) (sides : List Side) : State :=
  let t := s.checkEntries
  let a := t.announceOf
  if a.number = 0 ∧ a.entries.isEmpty then t
  else
    let src := if a.number ≠ 0 then a.number else lowestNumber (a.entries.map (·.number))
    match t.sendLend .announce src (announcePayload a) sides with
    | (t', true) => t'.raiseLend .announcesSent
    | (t', false) => t'

/-! ### Claiming (R112 to R118) -/

/-- A number joins the young end of the avoid list (R118, step 1). -/
def State.avoidNumber (s : State) (n : Byte) : State :=
  s.modLend (fun l =>
    let kept := l.avoid.filter (· != n)
    let kept := if kept.length < Config.avoidList then kept else kept.drop 1
    { l with avoid := kept ++ [n] })

/-- Another entry in use has the number in its number field (R113). -/
def State.numberTaken (s : State) (i : EntryNo) (n : Byte) : Bool :=
  (List.finRange 32).any (fun k => decide (k ≠ i) && (match s.entry k with | some e => e.phase.number == some n | none => false))

/-- The first number of a walk that meets the three tests of R113, each record read on the way. -/
def State.walkCandidates (i : EntryNo) : List Byte → State → State × Option Byte
  | [], s => (s, none)
  | n :: rest, s =>
    let t := s.checkDir n
    if (t.dir n).isNone && !t.lend.avoid.contains n && !t.numberTaken i n then (t, some n)
    else State.walkCandidates i rest t

/-- A candidate for an entry (R113). -/
def State.candidate (s : State) (i : EntryNo) (client : Ident) : State × Option Byte :=
  State.walkCandidates i (candidateWalk s.cfg client) s

/-- A CLAIM of a PROBING entry falls due and is formed; probes sent goes up when it is sent (R114). -/
def State.claimNow (s : State) (i : EntryNo) : State :=
  match s.entry i with
  | some e =>
    match e.phase with
    | .probing n _ =>
      let (t, sent) := s.sendLend .claim n (lendPayload ⟨n, e.ident, some (s.cfg.baseId.getD 0)⟩) bothSides
      match t.entry i with
      | some e' => t.setEntry i (some { e' with dues := e'.dues + 1, probes := if sent then e'.probes + 1 else e'.probes })
      | none => t
    | _ => s
  | none => s

/-- Probing begins for an entry with a candidate; its first CLAIM is due at once, unless no side is JOINED (R114, R115). -/
def State.startProbe (s : State) (i : EntryNo) (e : AliasEntry) (n : Byte) : State :=
  if s.joinedSides.isEmpty then s.setEntry i (some { e with phase := .probing n (.paused 0), probes := 0, dues := 0 })
  else (s.setEntry i (some { e with phase := .probing n (.running s.now), probes := 0, dues := 0 })).claimNow i

/-- An entry becomes FAILED (R118). -/
def State.failEntry (s : State) (i : EntryNo) (e : AliasEntry) : State :=
  (s.setEntry i (some { e with phase := .failed (s.now + Config.failedRetry) })).raiseLend .failures

/-- A candidate is sought for an entry: probing begins for it, or the entry becomes FAILED (R112, R118). -/
def State.seekNumber (s : State) (i : EntryNo) : State :=
  match s.entry i with
  | none => s
  | some e =>
    let (t, c) := s.candidate i e.ident
    match t.entry i, c with
    | some e', some n => t.startProbe i e' n
    | some e', none => t.failEntry i e'
    | none, _ => t

/-- A PROBING entry loses its number (R118). -/
def State.loseProbe (s : State) (i : EntryNo) : State :=
  match s.entry i with
  | some e =>
    match e.phase with
    | .probing n _ =>
      let e' := { e with tried := e.tried + 1 }
      let t := ((s.avoidNumber n).setEntry i (some e')).raiseLend .probeLosses
      if Config.candidateLimit ≤ e'.tried then t.failEntry i e' else t.seekNumber i
    | _ => s
  | none => s

/-! ### Holding and yielding (R119 to R121) -/

/-- The entry whose number field has a number. -/
def State.entryWith (s : State) (n : Byte) (p : AliasPhase → Bool) : Option (EntryNo × AliasEntry) :=
  (List.finRange 32).findSome? (fun i =>
    match s.entry i with
    | some e => if e.phase.number = some n ∧ p e.phase then some (i, e) else none
    | none => none)

/-- An entry that has given up number `n` becomes CONFLICT (R120, from the avoid list onward). -/
def State.enterConflict (s : State) (i : EntryNo) (n : Byte) : State :=
  let t := s.avoidNumber n
  match t.entry i with
  | some e => (t.setEntry i (some { e with phase := .conflict n, tried := 0, probes := 0 })).joinClaims i
  | none => t

/-- A BOUND or HELD entry gives up its number and becomes CONFLICT; the record becomes LEGACY or REMOTE-ALIAS at a side (R111,
R120, R121). -/
def State.yieldNumber (s : State) (i : EntryNo) (e : AliasEntry) (n : Byte) (x : Side) (peer : Option (Ident × Ident)) : State :=
  (((s.checkDir n).setEntry i (some { e with phase := .conflict n })).relinquish n e.ident (.yield x peer)).enterConflict i n

/-- A conflict notice (R120). -/
def State.conflictNotice (s : State) (n : Byte) (x : Side) (i : EntryNo) : State :=
  match s.entry i with
  | some e =>
    if e.phase.holds = some n then (s.yieldNumber i e n x none).raiseLend .conflicts else s
  | none => s

/-- A source notice for a number heard (R71, R116). -/
def State.sourceNotice (s : State) (n : Byte) : State :=
  match s.entryWith n AliasPhase.isProbing with
  | some (i, _) => s.loseProbe i
  | none => s

/-- A duplicate of entry `i`, shown by a peer with a client identifier and a junction identifier, heard on a side (R121). -/
def State.settleDuplicate (s : State) (i : EntryNo) (client junction : Ident) (x : Side) : State :=
  match s.entry i with
  | some e =>
    match e.phase.holds with
    | some n =>
      let base := s.cfg.baseId.getD 0
      let lower := if e.ident = client then decide (base < junction) else decide (e.ident < client)
      if lower then (s.announce bothSides).raiseLend .duplicatesKept
      else (s.yieldNumber i e n x (some (client, junction))).raiseLend .duplicatesLost
    | none => s
  | none => s

/-- A CLAIM heard (R117, R119, R129). -/
def State.hearClaim (s : State) (x : Side) (p : LendPayload) : State :=
  let t := s.checkEntries
  match t.entryWith p.number (fun ph => ph.isProbing || ph.holds.isSome) with
  | none => t
  | some (i, e) =>
    if e.phase.isProbing then
      let base := t.cfg.baseId.getD 0
      let junction := p.junction.getD 0
      if e.ident = p.client ∧ base = junction then t
      else if (if e.ident = p.client then decide (junction < base) else decide (p.client < e.ident)) then
        (t.loseProbe i).raiseLend .tiesLost
      else t.raiseLend .tiesWon
    else
      match t.sendLend .defend p.number (lendPayload ⟨p.number, e.ident, some (t.cfg.baseId.getD 0)⟩) [x] with
      | (t', true) => t'.raiseLend .defends
      | (t', false) => t'

/-- A DEFEND heard (R116, R121, R129). -/
def State.hearDefend (s : State) (x : Side) (p : LendPayload) : State :=
  let t := s.checkEntries
  match t.entryWith p.number (fun ph => ph.isProbing || ph.holds.isSome) with
  | none => t
  | some (i, e) =>
    if e.phase.isProbing then t.loseProbe i
    else if p.junction.getD 0 = t.cfg.baseId.getD 0 then t
    else t.settleDuplicate i p.client (p.junction.getD 0) x

/-- A RELEASE heard: the record of the number is removed if it is REMOTE-ALIAS with that client identifier (R79, R129). -/
def State.hearRelease (s : State) (p : LendPayload) : State :=
  let t := s.checkDir p.number
  match t.dir p.number with
  | some r =>
    match r.holder with
    | .remote _ ident _ => if ident = p.client then (t.setDir p.number none).raiseDir .upkeepRemovals else t
    | _ => t
  | none => t

/-! ### A peer's ANNOUNCE (R127, R160, R78) -/

/-- The client identifier under which an ANNOUNCE names a number (R121): of a number named in two ways, which R14 allows of the
printer number alone, the listed one counts, then the junction's, then the printer's. (DESIGN CHOICE, unsafe: log entry 87.) -/
def Announce.naming (a : Announce) (n : Byte) : Option Ident :=
  match a.entries.find? (fun e => e.number == n) with
  | some e => some e.client
  | none =>
    if a.number = n ∧ n ≠ 0 then some a.junction
    else match a.printer with
      | some (pn, _) => if pn = n ∧ n ≠ 0 then some (a.junction + 1) else none
      | none => none

/-- Step 4 for one entry: PROBING a number the ANNOUNCE names, it loses, and so does each new candidate that the ANNOUNCE names too
(R116); BOUND or HELD with one, it is tested as a duplicate (R121). (DEDUCED, unsafe: log entry 64.) -/
def State.announceEntry (a : Announce) (x : Side) (i : EntryNo) : Nat → State → State
  | 0, s => s
  | fuel + 1, s =>
    match s.entry i with
    | some e =>
      match e.phase.number.bind a.naming with
      | some client =>
        if e.phase.isProbing then State.announceEntry a x i fuel (s.loseProbe i)
        else if e.phase.holds.isSome then s.settleDuplicate i client a.junction x
        else s
      | none => s
    | none => s

/-- Step 4: entries whose numbers the ANNOUNCE names lose, or are tested as duplicates: once through the table, in its order. (DEDUCED,
unsafe: log entry 64.) -/
def State.announceEntries (s : State) (a : Announce) (x : Side) : State :=
  (List.finRange 32).foldl (fun t i => State.announceEntry a x i (Config.candidateLimit + 1) t) s.checkEntries

/-- One number of an announcement is written (R78, first step); a LEGACY record not quarantined begins its move count afresh (log
entry 15). (DEDUCED, unsafe: log entry 15.) -/
def State.upkeepWrite (s : State) (n : Byte) (client peer : Ident) (x : Side) : State :=
  if n = 0 ∨ n = 255 ∨ s.cfg.isReserved n then s
  else
    let t := s.checkDir n
    match t.dir n with
    | none => (t.setDir n (some (freshRecord (.remote x client peer) s.now))).raiseDir .upkeepWrites
    | some r =>
      match r.side with
      | none => t
      | some y =>
        let loc := if r.quarantined then y else x
        let kept : DirRecord := { r with holder := .remote loc client peer, lastHeard := s.now }
        let written : DirRecord := if r.isLegacy ∧ !r.quarantined then freshRecord kept.holder s.now else kept
        if x ≠ y ∧ !r.quarantined then (t.setMoved n written).raiseDir .upkeepWrites
        else (t.setDir n (some written)).raiseDir .upkeepWrites

/-- The numbers an ANNOUNCE announces, each with its client identifier: the junction number when it is not 0, and the list (R78). -/
def Announce.numbers (a : Announce) : List (Byte × Ident) :=
  (if a.number = 0 then [] else [(a.number, a.junction)]) ++ a.entries.map (fun e => (e.number, e.client))

/-- The directory's records of a peer are brought into line with its announcement (R78). -/
def State.upkeep (s : State) (a : Announce) (x : Side) : State :=
  let t := a.numbers.foldl (fun t m => t.upkeepWrite m.1 m.2 a.junction x) s
  stationNumbers.foldl (fun t n =>
    let t := t.checkDir n
    match t.dir n with
    | some r =>
      if r.ownedBy a.junction ∧ !(a.numbers.map (·.1)).contains n then (t.setDir n none).raiseDir .upkeepRemovals else t
    | none => t) t

/-- Loop evidence opens an assessment interval when it is IDLE (R161). -/
def State.assess (s : State) : State :=
  match s.health.assessment with
  | some _ => s
  | none =>
    s.modHealth (fun h => { h with assessment := some (s.now + (s.cfg.announcePeriod + 2) * Config.sec),
                                   assessments := bump h.assessments })

/-- The junction's own frame has come back (R159). -/
def State.ownEvidence (s : State) : State := (s.modHealth (fun h => { h with ownLooped := true })).assess

/-- Step 2: the loop watch of a peer's ANNOUNCE (R160). Of two watches that expire at one moment the one that joined first is
dropped. (DESIGN CHOICE, unsafe: log entry 72.) -/
def State.watchPeer (s : State) (peer : Ident) (x : Side) (seq : Byte) : State :=
  let others := s.health.watches.filter (fun w => w.peer != peer)
  let double : Option (RosterNo × RosterEntry) :=
    match s.peerIndex peer with
    | some j =>
      match s.peer j with
      | some e =>
        match Sides.get e.seq (otherSide x), Sides.get e.heard (otherSide x) with
        | some q, some h => if q = seq ∧ s.now ≤ h + Config.loopWatch then some (j, e) else none
        | _, _ => none
      | none => none
    | none => none
  match double with
  | some (j, e) => ((s.setPeer j (some { e with looped := true })).modHealth (fun h => { h with watches := others })).assess
  | none =>
    let kept := if others.length < Config.watchList then others else others.drop 1
    s.modHealth (fun h => { h with watches := kept ++ [⟨peer, x, seq, s.now + Config.loopWatch⟩] })

/-- A peer ANNOUNCE, in the steps of R127. -/
def State.hearAnnounce (s : State) (x : Side) (a : Announce) (seq : Byte) (repeated : Bool) : State :=
  if s.cfg.baseId = some a.junction then s.ownEvidence
  else
    let t := s.checkPeers.watchPeer a.junction x seq
    let t := t.enterPeer a x seq
    if repeated then t else (t.announceEntries a x).upkeep a x

/-! ### Star nodes and ports (R109, R122, R123, R125) -/

/-- A node is given an entry and joins the claim queue, or is counted NODE-LIMIT (R109). -/
def State.newNode (s : State) (p : PortId) (ident : Ident) : State :=
  let s := s.checkEntries
  match (List.finRange 32).find? (fun i => decide (2 ≤ i.val) && (s.entry i).isNone) with
  | none => s.raiseLend .nodeLimit
  | some i =>
    let t := (s.setEntry i (some (unboundEntry .starNode ident (some p)))).joinClaims i
    t.modPort p (fun q => { q with nodes := q.nodes.map (fun n => if n.ident = ident then { n with entry := some i } else n) })

/-- A port has left UP: its nodes' BOUND entries become HELD, and those seeking a number are freed (R122). -/
def State.holdPort (s : State) (p : PortId) : State :=
  (List.finRange 32).foldl (fun t i =>
    match t.entry i with
    | some e =>
      if e.client = .starNode ∧ e.port = some p then
        match e.phase with
        | .bound n =>
          (t.setEntry i (some { e with phase := .held n (t.now + t.cfg.aliasHold * Config.sec) })).raiseLend .holds
        | .held _ _ => t
        | _ => t.freeEntry i
      else t
    | none => t) s.checkEntries

/-- A HELD entry becomes BOUND. -/
def AliasEntry.rebound (e : AliasEntry) : AliasEntry :=
  match e.phase with
  | .held n _ => { e with phase := .bound n }
  | _ => e

/-- A port has become UP: every HELD entry on it becomes BOUND (R123). -/
def State.bindPort (s : State) (p : PortId) : State :=
  (List.finRange 32).foldl (fun t i =>
    match t.entry i with
    | some e => if e.client = .starNode ∧ e.port = some p then t.setEntry i (some e.rebound) else t
    | none => t) s.checkEntries

/-- A node with an entry has moved to an UP port (R123). -/
def State.moveEntry (s : State) (i : EntryNo) (p : PortId) : State :=
  let s := s.checkEntry i
  match s.entry i with
  | some e =>
    let moved : AliasEntry := { e.rebound with port := some p }
    match e.phase.holds with
    | some n => ((s.checkDir n).setEntry i (some moved)).dirRelocate n p
    | none => s.setEntry i (some moved)
  | none => s

/-- A released node's entry (R125). -/
def State.releaseEntry (s : State) (i : EntryNo) : State :=
  let s := s.checkEntry i
  match s.entry i with
  | some e =>
    match e.phase.holds with
    | some n =>
      ((((s.checkDir n).setEntry i (some { e with phase := .unbound })).relinquish n e.ident .remove).freeEntry i).raiseLend
        .nodeReleases
    | none => s.freeEntry i
  | none => s

/-! ### Pausing probes (R115) -/

/-- Changes the clock of every probe. -/
def State.mapProbes (s : State) (f : ProbeClock → ProbeClock) : State :=
  (List.finRange 32).foldl (fun t i =>
    match t.entry i with
    | some e =>
      match e.phase with
      | .probing n c => t.setEntry i (some { e with phase := .probing n (f c) })
      | _ => t
    | none => t) s.checkEntries

/-- Every probe is paused, its probe time kept. -/
def State.pauseProbes (s : State) : State :=
  s.mapProbes (fun c => match c with | .running start => .paused (s.now - start) | .paused k => .paused k)

/-- Every paused probe goes on from the probe time kept. -/
def State.resumeProbes (s : State) : State :=
  s.mapProbes (fun c => match c with | .paused k => .running (s.now - k) | .running start => .running start)

end Sys2Proof.Machine
end

