-- ==== Sys2Proof/Machine/Directory.lean ====
section
/-! DEFINITION. Learning (R70 to R72) and destination decode (R81 to R83) by the Station Directory. -/

namespace Sys2Proof.Machine

/-! ### Learning -/

/-- The directory learns from a frame's source unless R70 excludes it. -/
def Settings.teaches (cfg : Settings) (src : Byte) (kind : Kind) (echo : Bool) : Bool :=
  !echo && (src != 0) && (src != 255) && !cfg.isReserved src && !kind.isLending

/-- The record of a number that is learned from on side `x`: the table of R71, but for the OWN-ALIAS row. -/
def State.learnRecord (s : State) (x : Side) (n : Byte) : State :=
  match s.dir n with
  | none => (s.setDir n (some (freshRecord (.legacy x) s.now))).raiseDir .learned
  | some r =>
    let heard : DirRecord := { r with lastHeard := s.now }
    match r.holder with
    | .own _ _ _ => s
    | .legacy y =>
      if y = x ∨ r.quarantined then s.setDir n (some heard) else s.setMoved n { heard with holder := .legacy x }
    | .remote y i p =>
      if y = x ∨ r.quarantined then s.setDir n (some heard) else s.setMoved n { heard with holder := .remote x i p }

/-- The conflict notice that a frame from an OWN-ALIAS number raises (R72). -/
def State.learnConflict (s : State) (x : Side) (n : Byte) : State :=
  match s.dir n with
  | some ⟨.own _ _ i, _, _, _, _⟩ => ((s.raiseDir .conflictNotices).checkEntry i).conflictNotice n x i
  | _ => s

/-- The directory learns from a GOOD trunk frame (R71): the record first, then the notices; none go out in RELAY-ONLY (R69). -/
def State.learn (s : State) (x : Side) (src : Byte) (kind : Kind) (echo : Bool) : State :=
  if s.cfg.teaches src kind echo then
    let t := s.checkDir src
    if t.running then
      let u := (t.learnRecord x src).learnConflict x src
      if u.cfg.isLending src then u.checkEntries.sourceNotice src else u
    else t.learnRecord x src
  else s

/-! ### Decode -/

/-- The tests of R81 from 5 on, on the record of the destination; `x` is the arrival side. -/
def decodeRecord (joined : Side → Bool) (x : Side) (d : Byte) (r : Option DirRecord) : Decode :=
  match r with
  | none => if joined (otherSide x) then .flood d else .noPath
  | some r =>
    match r.holder with
    | .own loc _ i => .entry i loc
    | .legacy y | .remote y _ _ =>
      if r.quarantined then .quarantine
      else if y = x then .filter
      else if joined y then .relay y d
      else .unreachable

/-- The trunk decode of a staged header (R81). -/
def State.decodeTrunk (s : State) (x : Side) (h : TrunkHeader) : State × Decode :=
  if h.dest = 0 ∨ h.src = 0 ∨ h.src = 255 then (s, .malformed)
  else if s.cfg.isReserved h.dest then (s, .reserved)
  else
    let lending := (kindOf h.kind).isLending
    let t := if lending then s else s.checkDir h.src
    if !lending && (match t.dir h.src with | some r => r.quarantined | none => false) then (t, .quarantine)
    else if h.dest = 255 then (t, .broadcast)
    else
      let u := t.checkDir h.dest
      (u, decodeRecord u.joined x h.dest (u.dir h.dest))

/-- Tests 4 to 9 of R83 on the record of the number. -/
def decodeNumberRecord (joined : Side → Bool) (d : Byte) (r : Option DirRecord) : Decode :=
  match r with
  | none => if joined .west || joined .east then .flood d else .noPath
  | some r =>
    match r.holder with
    | .own loc _ i => .entry i loc
    | .legacy y | .remote y _ _ =>
      if r.quarantined then .quarantine else if joined y then .relay y d else .unreachable

/-- The decode of a station number with no arrival side (R83, R84). -/
def State.decodeNumber (s : State) (d : Byte) : State × Decode :=
  if d = 0 then (s, .malformed)
  else if s.cfg.isReserved d then (s, .reserved)
  else if d = 255 then (s, .broadcast)
  else
    let t := s.checkDir d
    (t, decodeNumberRecord t.joined d (t.dir d))

/-- The port whose node list holds an identifier. -/
def State.portOfNode (s : State) (i : Ident) : Option PortId :=
  (List.finRange 6).find? (fun p => (s.port p).nodes.any (fun n => n.ident == i))

/-- Tests 8 to 12 of R82: the outcome of an identifier lookup. -/
def decodeLookup (joined : Side → Bool) (found : Option (Byte × DirRecord)) : Decode :=
  match found with
  | none => .unresolved
  | some (n, r) =>
    match r.holder with
    | .own loc _ i => .entry i loc
    | .legacy y | .remote y _ _ =>
      if r.quarantined then .quarantine else if joined y then .relay y n else .unreachable

/-- The star decode of a staged header on a port (R82). -/
def State.decodeStar (s : State) (k : PortId) (h : StarHeader) : State × Decode :=
  if malformedSource h.src then (s, .malformed)
  else if h.dest = starBroadcast then (s, .broadcast)
  else if (s.port k).nodes.any (fun n => n.ident == h.dest) then (s, .filter)
  else match s.portOfNode h.dest with
    | some j => (s, .switchTo j)
    | none =>
      match trunkFormNumber s.cfg.trunkPrefix h.dest with
      | some d => s.decodeNumber d
      | none =>
        if s.cfg.baseId = some h.dest then (s, .junction)
        else if s.cfg.printing ∧ s.cfg.printerId = some h.dest then (s, .printer)
        else
          let t := s.checkDirAll
          (t, decodeLookup t.joined (t.lookup h.dest))

end Sys2Proof.Machine
end

