-- ==== Sys2Proof/Machine/Health.lean ====
section
/-! DEFINITION. Partition and restore of a side (R38, R39, R155, R156), and a star port's leaving and reaching UP (R43, R44, R164,
R165). -/

namespace Sys2Proof.Machine

/-! ### Sides -/

/-- An attempt that an uncorrectable word or pool recovery ended is being ended on the line: its inverted check, or the jam of a
collision with that, is going out (R27, R40). -/
def TrunkUnit.cutting (u : TrunkUnit) : Bool :=
  match u.sending with
  | .cutCheck _ _ | .cutJam _ => true
  | _ => false

/-- An attempt is in flight: the head record's is being sent, in its ack window, or in the jam that ends it, or an attempt cut short
is being ended on the line (R38; DEDUCED, unsafe: log entry 78). A collision reported while the side was JOINED has ended its attempt:
none is in flight in its jam, before the backoff wait that follows. (DEDUCED, unsafe: log entry 92.) -/
def TrunkUnit.inFlight (u : TrunkUnit) : Bool :=
  u.cutting ||
  match u.queue with
  | [] => false
  | r :: _ =>
    match r.phase with
    | .sending | .awaiting _ _ | .flushAfterJam => true
    | _ => false

/-- A unit on entry to PARTITIONED: silent, its reception listen-only, its answer dropped (R39). (DEDUCED, unsafe: log entry 16.) -/
def TrunkUnit.silenced (u : TrunkUnit) (now : Time) : TrunkUnit :=
  { u with
    rx := u.rx.map (fun r => match r.mode with | .full => { r with mode := .countOnly, chain := none } | _ => r)
    answer := none
    idleSince := match u.sending with | .silent => u.idleSince | _ => if u.otherCarrier then none else some now
    quiet := match u.sending with | .silent => u.quiet | _ => false
    sending := .silent }

/-- Every probe pauses when no side is JOINED (R115). -/
def State.pauseIfCut (s : State) : State := if s.joinedSides.isEmpty then s.pauseProbes else s

/-- A PARTITIONED side is restored (R156). -/
def State.restoreSide (s : State) (x : Side) : State :=
  ((s.modSide x (fun h =>
    { h with state := .joined, reason := none, loopHold := none, restores := bump h.restores })).resumeProbes).announce [x]

/-- A side enters PARTITIONED (R39, R155): the queue is flushed, the unit silenced, a loop hold started for LOOP, and a pending
restore acted on. -/
def State.enterPartitioned (s : State) (x : Side) : State :=
  let t := (s.modSide x (fun h =>
    { h with state := .partitioned
             loopHold := if h.reason = some .loop then some (s.now + Config.loopHold) else h.loopHold })).pauseIfCut
  let t := t.flushUnit x
  let t := match (t.unit x).rx with
    | some r => (match r.mode with | .full => t.releaseChain r.chain | _ => t)
    | none => t
  let t := t.modUnit x (fun u => u.silenced s.now)
  if (t.side x).pendingRestore then (t.modSide x (fun h => { h with pendingRestore := false })).restoreSide x else t

/-- The partition counter of a reason goes up (R155, R158). -/
def SideHealth.countPartition (h : SideHealth) : PartitionReason → SideHealth
  | .health => { h with partitionsHealth := bump h.partitionsHealth }
  | .loop => { h with partitionsLoop := bump h.partitionsLoop }
  | .admin => { h with partitionsAdmin := bump h.partitionsAdmin }

/-- A partition decision for a JOINED side (R155): PARTITIONING while an attempt is in flight, and PARTITIONED otherwise. -/
def State.decidePartition (s : State) (x : Side) (r : PartitionReason) : State :=
  let t := s.modSide x (fun h => { h.countPartition r with reason := some r })
  if (t.unit x).inFlight then (t.modSide x (fun h => { h with state := .partitioning })).pauseIfCut else t.enterPartitioned x

/-- A PARTITIONING side whose attempt has ended enters PARTITIONED (R38). (DEDUCED, unsafe: log entry 13.) -/
def State.settleSide (s : State) (x : Side) : State :=
  if (s.side x).state = .partitioning ∧ (s.unit x).inFlight = false then s.enterPartitioned x else s

/-- Both sides are settled. -/
def State.settleSides (s : State) : State := (s.settleSide .west).settleSide .east

/-- The PARTITION-SIDE command's effect on a side (R158). A reason that is ADMIN already raises its counter again. (DEDUCED, unsafe:
log entry 85.) -/
def State.partitionSide (s : State) (x : Side) : State :=
  match (s.side x).state with
  | .joined => s.decidePartition x .admin
  | .partitioning => s.modSide x (fun h => { h.countPartition .admin with reason := some .admin, pendingRestore := false })
  | .partitioned => s.modSide x (fun h => { h.countPartition .admin with reason := some .admin, loopHold := none })

/-- The RESTORE-SIDE command's effect on a side (R158). -/
def State.restoreCommand (s : State) (x : Side) : State :=
  match (s.side x).state with
  | .joined => s
  | .partitioning => s.modSide x (fun h => { h with pendingRestore := true })
  | .partitioned => s.restoreSide x

/-! ### Star ports -/

/-- The reception of a port that leaves UP is over: blocks handed back and, for a frame under way, one more in the total of the
cause (R43, step 3). After an isolation the rest of the frame is ignored; after a link loss none comes. (DEDUCED, unsafe: log entry 47.)
A frame in its first bytes, which no command has carried, is counted when they are reported. (DESIGN CHOICE, unsafe: log entry 104.) -/
def State.endReception (s : State) (p : PortId) (isolated : Bool) : State :=
  let t := match (s.port p).rx with
    | some r =>
      (match r.mode with
       | .ignored => s
       | _ => (s.releaseChain r.chain).raisePort p (if isolated then .isolatedDiscards else .cut))
    | none => s
  t.modPort p (fun q =>
    { q with staging := none, ignoreBefore := t.now
             leftUp := if q.rx.isNone then some ⟨q.ignoreBefore, t.now, isolated⟩ else none
             rx := if isolated then q.rx.map (fun r => { r with mode := .ignored, chain := none }) else none })

/-- The frame being sent ends at once: with its inverted check on isolation, with nothing more on link loss (R43, step 1). -/
def Port.cutSending (q : Port) (now : Time) (isolated : Bool) : Port :=
  match q.sending with
  | none => q
  | some began =>
    let sent := q.lineOut.take ((now - began) / Config.starByte)
    { q with sending := none
             lineOut := if isolated then cutStar sent else sent
             lastSent := some (if isolated then now + 4 * Config.starByte else now) }

/-- An UP port becomes DOWN or ISOLATED (R43). -/
def State.leavePort (s : State) (p : PortId) (isolated : Bool) : State :=
  let t := s.modPort p (fun q => { q.cutSending s.now isolated with state := if isolated then .isolated else .down })
  let t := ((t.flushPort p).endReception p isolated).holdPort p
  t.modPort p (fun q => { q with nodes := q.nodes.filter (fun n => n.entry.isSome) })

/-- A port becomes UP (R44): its nodes' last heard is now, its held entries are bound again, and a frame already under way is not
received. -/
def State.portUp (s : State) (p : PortId) : State :=
  (s.modPort p (fun q =>
    { q with state := .up, staging := none, ignoreBefore := s.now
             nodes := q.nodes.map (fun n => { n with lastHeard := s.now })
             rx := q.rx.map (fun r => { r with mode := .ignored, chain := none }) })).bindPort p

/-- An isolation of an UP port begins (R164). -/
def State.isolatePort (s : State) (p : PortId) : State :=
  let k := newIsolationCount (s.port p).k (s.port p).lastRestore s.now
  (s.modPort p (fun q =>
    { q with k := k, holdEnd := some (s.now + isolationHold s.cfg k), isolations := bump q.isolations })).leavePort p true

/-- An isolation ends, at the hold's expiry or on RELEASE-PORT (R165). -/
def State.endIsolation (s : State) (p : PortId) : State :=
  let t := s.modPort p (fun q => { q with holdEnd := none, lastRestore := some s.now })
  if s.pins.link[p] then t.portUp p else t.modPort p (fun q => { q with state := .down })

/-- The RELEASE-PORT command's effect (R165). -/
def State.releaseCommand (s : State) (p : PortId) : State :=
  if (s.port p).state = .isolated then s.endIsolation p else s

end Sys2Proof.Machine
end

