-- ==== Sys2Proof/Machine/Engine.lean ====
section
/-! DEFINITION. The Forwarding Engine (chapter 6): which frames are kept (R88), trunk and star frames at their end (R89 to R101), the
junction's own frames (R102), and the frames handed to the junction's blocks. -/

namespace Sys2Proof.Machine

/-! ### What clients take (R91) -/

/-- What a client does with a kind (R91). -/
inductive Taking where
  | refused
  | discarded
  | toBlock
  | delivered
deriving DecidableEq, Repr

/-- The table of R91; "taken and discarded" and "discarded" are `discarded`, which an unacknowledged kind is not answered for. -/
def taking (client : ClientKind) (kind : Kind) : Taking :=
  if kind.isLending then .toBlock
  else
    match client, kind with
    | _, .unknown => .refused
    | .starNode, _ => .delivered
    | .junction, .inspectReq => .toBlock
    | .junction, .datagram | .junction, .printStatus | .junction, .inspectReply => .discarded
    | .junction, _ => .refused
    | .printer, .datagram | .printer, .printStatus | .printer, .inspectReply => .discarded
    | .printer, k => if k.isPrintRequest then .toBlock else .refused

/-- The kind is one the client takes into buffers. -/
def intoBuffers (client : ClientKind) (kind : Kind) : Bool :=
  match taking client kind with
  | .toBlock | .delivered => true
  | .refused | .discarded => false

/-- The entry is BOUND. -/
def State.isBound (s : State) (i : EntryNo) : Bool := (s.boundNumber i).isSome

/-- The entry is HELD. -/
def State.isHeld (s : State) (i : EntryNo) : Bool := match s.entry i with | some e => e.phase.isHeld | none => false

/-! ### Which frames are kept (R88) -/

/-- Whether a staged trunk frame is kept, the alias entry it names having been read. -/
def State.keepsTrunk (s : State) (h : TrunkHeader) (d : Decode) (duplicate : Bool) : Bool :=
  !s.cfg.isReserved h.src &&
  match d with
  | .relay _ _ | .flood _ | .broadcast => true
  | .entry i _ => !duplicate && s.isBound i && intoBuffers (clientKindOf i) (kindOf h.kind)
  | _ => false

/-- Whether a staged star frame is kept. -/
def keepsStar (h : StarHeader) (d : Decode) : Bool :=
  !(kindOf h.kind).isAnswer && !(kindOf h.kind).isLending &&
  match d with
  | .switchTo _ | .entry _ _ | .junction | .printer | .relay _ _ | .flood _ | .broadcast => true
  | _ => false

/-! ### Frames handed to the junction's blocks -/

/-- A block of the junction reads bytes 0 to `upto - 1` of a frame handed to it, consumer LOCAL-READ: its payload. An uncorrectable
word discards the frame, its chain released with the block under test (R172); a pool recovery begun on the way abandons it. (DEDUCED, unsafe: log entry 33.)
The words behind an uncorrectable one are read too. (DESIGN CHOICE, unsafe: log entry 75.)
Of two blocks with such words the first alone is put under test. (DESIGN CHOICE, unsafe: log entry 86.)
How far the frame is read is settled by its stored length as last written, even when the word of that length is the uncorrectable one.
(DESIGN CHOICE, unsafe: log entry 103.) -/
def State.readHanded (s : State) (first : BlockNo) (f : Form) (upto : Nat → Nat) : State × Option (List Byte) :=
  match State.walk 256 first s with
  | (t, none) => (t, none)
  | (t, some bs) =>
    let hi := upto (t.storedLength bs f)
    match t.firstBroken bs 0 hi with
    | some target => ((t.meetChain .localRead bs (chainWords bs 0 hi)).releaseTesting first target, none)
    | none => (t.meetChain .localRead bs (chainWords bs 0 hi), some (t.storedPayload bs f))

/-- A frame handed to a block is payload-malformed: its content is discarded, and MALFORMED goes up by one (R14). -/
def State.malformedPayload (s : State) (first : BlockNo) : State := (s.raiseDecode .malformed).releaseFrom first

/-- The Alias Unit takes a junction frame it has read (R127, R129). -/
def State.aliasFrame (s : State) (x : Side) (kind : Kind) (seq : Byte) (repeated : Bool) (payload : List Byte) : State :=
  match kind with
  | .claim => match readLend payload with | some p => s.hearClaim x p | none => s
  | .defend => match readLend payload with | some p => s.hearDefend x p | none => s
  | .release => match readLend payload with | some p => s.hearRelease p | none => s
  | .announce => match readAnnounce payload with | some a => s.hearAnnounce x a seq repeated | none => s
  | _ => s

/-- The number of the station or node a request comes from (R136, R180): a trunk frame's source, or the number of the node's alias
entry when that entry is BOUND. -/
def State.requesterNumber (s : State) (r : Requester) : Option Byte :=
  match r with
  | .station n => some n
  | .node p i =>
    match (s.port p).nodes.find? (fun n => n.ident == i) with
    | some n => n.entry.bind s.boundNumber
    | none => none

/-- To whom an answer goes: the requester's number, or its identifier on its port (R136, R180). -/
def State.answerTo (s : State) (r : Requester) : Recipient :=
  match s.requesterNumber r, r with
  | some n, _ => .number n
  | none, .station n => .number n
  | none, .node p i => .node p i

/-- The alias entry of the node a request comes from is read. -/
def State.checkRequester (s : State) (r : Requester) : State :=
  match r with
  | .station _ => s
  | .node p i =>
    match (s.port p).nodes.find? (fun n => n.ident == i) with
    | some n => match n.entry with | some e => s.checkEntry e | none => s
    | none => s

/-- The last byte the Print Spool reads when a frame is handed to it: all of a request, but of print data the job number, the index
and no more, since the data is read as it prints. (DEDUCED, unsafe: log entry 34.) -/
def printReads (kind : Kind) (f : Form) (len : Nat) : Nat :=
  headerBytes f + (match kind with | .printData => min len 3 | _ => len)

/-- A print request handed to the Print Spool with the chain that holds it (R91, R101, R136). `src` is the source of a trunk
frame. -/
def State.printFrame (s : State) (who : Requester) (kind : Kind) (src : Option Byte) (f : Form) (c : Chain) : State :=
  match s.readHanded c.first f (printReads kind f) with
  | (t, none) => t
  | (t, some payload) =>
    if payloadWellFormed kind.code src payload then
      let t := ((t.checkRequester who).checkEntry 1).checkJobs
      if t.pool.recovering then t
      else
        let n := t.requesterNumber who
        let rcpt := t.answerTo who
        match kind, payload with
        | .printOpen, bs =>
          let t := t.releaseFrom c.first
          (match readOpen bs with | some o => t.printOpen rcpt n o | none => t)
        | .printData, j :: i1 :: i0 :: _ => t.printData rcpt n j (word16 i1 i0).toNat c f
        | .printClose, [j, c1, c0] => (t.releaseFrom c.first).printClose rcpt n j (word16 c1 c0).toNat
        | .printCancel, [j] => (t.releaseFrom c.first).printCancel rcpt n j
        | .printQuery, [j] => (t.releaseFrom c.first).printQuery rcpt j
        | _, _ => t.releaseFrom c.first
    else t.malformedPayload c.first

/-! ### Sending a block's frame (R102) -/

/-- The Print Spool or the Settings and Inspection Unit as the sender of a frame. -/
inductive Sender where
  | spool
  | admin
deriving DecidableEq, Repr

/-- The sender's alias entry. -/
def Sender.entryNo : Sender → EntryNo
  | .admin => 0
  | .spool => 1

/-- The sender's identifier, the source of its frames on the star. -/
def Settings.senderIdent (cfg : Settings) : Sender → Ident
  | .admin => cfg.baseId.getD 0
  | .spool => cfg.printerId.getD 0

/-- The client identifier of the OWN-ALIAS record of a number that names entry `i`. -/
def State.ownIdent (s : State) (n : Byte) (i : EntryNo) : Option Ident :=
  match s.dir n with
  | some ⟨.own _ ident k, _, _, _, _⟩ => if k = i then some ident else none
  | _ => none

/-- A formed frame on its way to a star node: its star record, sent from the stored trunk form (R98, R102). -/
def ownStarRecord (c : Chain) (h : TrunkHeader) (dest src : Ident) : StarRecord :=
  newRecord c .trunk false (starFrameLength h.len.toNat) h.len.toNat dest src h.kind h.seq .internal .ordinary false

/-- A formed frame on its way to a side: its trunk record (R102). -/
def ownTrunkRecord (c : Chain) (h : TrunkHeader) (d : Byte) : TrunkRecord :=
  newRecord c .trunk false (trunkFrameLength h.len.toNat) h.len.toNat d h.src h.kind h.seq .internal .ordinary false

/-- A formed frame is placed on trunk sides, while the sender's alias entry is BOUND (R102). -/
def State.sendTrunk (s : State) (w : Sender) (c : Chain) (h : TrunkHeader) (d : Byte) (sides : List Side) : State :=
  if s.isBound w.entryNo then
    (State.placeAll c .internal (sides.map (fun y => .trunk y (ownTrunkRecord c h d))) true ⟨0, 0⟩ s).1
  else (s.raiseDrop .notBound).releaseFrom c.first

/-- A block's frame, formed and in chain `c`, is placed (R102). One decoded LOCAL for a star node whose entry is rebuilt by this very
read is dropped under PLACEMENT (DEDUCED, unsafe: log entry 82). A recovery begun on the way has the placements refused (R106; DESIGN
CHOICE, unsafe: log entry 81). -/
def State.sendOwn (s : State) (w : Sender) (c : Chain) (h : TrunkHeader) (rcpt : Recipient) : State :=
  match rcpt with
  | .node _ i =>
    match s.portOfNode i with
    | none => (s.raiseDecode .unresolved).releaseFrom c.first
    | some k =>
      (State.placeAll c .internal [.star k (ownStarRecord c h i (s.cfg.senderIdent w))] true ⟨0, 0⟩ s).1
  | .number d =>
    let (t, o) := s.decodeNumber d
    let t := t.checkEntry w.entryNo
    match o with
    | .relay y _ => t.sendTrunk w c h d [y]
    | .flood _ => t.sendTrunk w c h d t.joinedSides
    | .entry _ none => (t.raiseDrop .localDiscard).releaseFrom c.first
    | .entry i (some k) =>
      let t := t.checkEntry i
      if t.isHeld i then (t.raiseDrop .held).releaseFrom c.first
      else (match t.ownIdent d i with
        | some ident =>
          (State.placeAll c .internal [.star k (ownStarRecord c h ident (t.cfg.senderIdent w))] true ⟨0, 0⟩ t).1
        | none => (t.raiseDrop .placement).releaseFrom c.first)
    | o => (t.raiseDecode o.count).releaseFrom c.first

/-- One PRINT-STATUS is formed and handed over, or not formed (R149); the printer's entry is read for its source (R169). (DESIGN
CHOICE, unsafe: log entry 37.) -/
def State.sendNotice (s : State) (n : Notice) : State :=
  let s := s.checkEntry 1
  let seq := s.spool.seq
  let dest : Byte := match n.dest with | .number d => d | .node _ _ => 0
  let h : TrunkHeader :=
    ⟨dest, (s.boundNumber 1).getD 0, Kind.printStatus.code, seq, BitVec.ofNat 16 n.payload.length⟩
  match s.formChain (trunkFrame h n.payload) with
  | (t, none) => t.raiseSpool .notFormed
  | (t, some c) => (t.modSpool (fun p => { p with seq := p.seq + 1 })).sendOwn .spool c h n.dest

/-- The PRINT-STATUS frames that the event called for are formed, in order; those called for on the way follow. -/
def State.drain : Nat → State → State
  | 0, s => s
  | fuel + 1, s =>
    match s.spool.outbox with
    | [] => s
    | ns => State.drain fuel (ns.foldl State.sendNotice (s.modSpool (fun p => { p with outbox := [] })))

/-- What ends every event: sides whose attempt has ended become PARTITIONED, and the notices called for are formed. -/
def State.finish (s : State) : State :=
  let t := State.drain (s.check.bad.length + 2) s.settleSides
  State.drain (t.check.bad.length + 2) t.settleSides

/-! ### Inspection requests (R13, R180, R181) -/

/-- A request whose operation, or whose COMMAND code, no row of the table names: it is judged when it is handed over. -/
def unnamedRequest (op command : Byte) : Bool :=
  !((op == 1) || (op == 2) || (op == 3)) || ((op == 3) && !(decide (1 ≤ command.toNat) && decide (command.toNat ≤ 5)))

/-- The requester is on the admin list (R181, test 2). -/
def State.isAdmin (s : State) (r : Requester) : Bool :=
  match s.requesterNumber r with
  | some n => (n != 0) && s.cfg.adminList.contains n
  | none => false

/-- The payload of an INSPECT-REPLY (R13). -/
def replyPayload (status cls index : Byte) (value : List Byte) : List Byte :=
  [status, cls, index, byte1 value.length] ++ value

/-- The value of an UNKNOWN reply. -/
def unknownValue : List Byte := List.replicate 16 0xFF

/-- The reply to a request is formed in one block and handed over, or not formed (R180); the junction's entry is read for its source
(R169). (DESIGN CHOICE, unsafe: log entry 37.) -/
def State.reply (s : State) (r : Request) (status : Byte) (value : List Byte) : State :=
  let s := s.checkEntry 0
  let payload := replyPayload status r.cls r.index value
  let rcpt := s.answerTo r.requester
  let dest : Byte := match rcpt with | .number d => d | .node _ _ => 0
  let h : TrunkHeader :=
    ⟨dest, (s.boundNumber 0).getD 0, Kind.inspectReply.code, s.admin.seq, BitVec.ofNat 16 payload.length⟩
  match s.formChain (trunkFrame h payload) with
  | (t, none) => t
  | (t, some c) => (t.modAdmin (fun a => { a with seq := a.seq + 1 })).sendOwn .admin c h rcpt

/-- An INSPECT-REQ is handed to the Settings and Inspection Unit (R91, R101). (DESIGN CHOICE, unsafe: log entry 11.) -/
def State.inspectFrame (s : State) (who : Requester) (f : Form) (c : Chain) : State :=
  match s.readHanded c.first f (fun len => headerBytes f + len) with
  | (t, none) => t
  | (t, some [op, cls, index, command, argument]) =>
    let r : Request := ⟨who, op, cls, index, command, argument, c.first⟩
    if unnamedRequest op command then
      let t := ((t.checkRequester who).checkEntry 0).releaseFrom c.first
      if (op == 3) && !t.isAdmin who then t.reply r 2 [] else t.reply r 1 unknownValue
    else t.modAdmin (fun a => { a with inbox := a.inbox ++ [r] })
  | (t, some _) => t.malformedPayload c.first

/-! ### Trunk frames at their end (R89 to R98) -/

/-- A GOOD trunk frame as the engine is handed it: its side, header, decode outcome, marks and chain (R33). -/
structure TrunkFrame where
  side : Side
  header : TrunkHeader
  decode : Decode
  echo : Bool
  duplicate : Bool
  /-- Marked OVERRUN; such a frame holds no chain. -/
  overrun : Bool
  chain : Option Chain
deriving DecidableEq, Repr

/-- The frame is directed (R2). -/
def TrunkFrame.directed (f : TrunkFrame) : Bool := Machine.directed f.header.kind f.header.dest

/-- The answer to a frame is handed to its side's unit (R28); `nak` is a NAK's reason. -/
def State.answer (s : State) (f : TrunkFrame) (nak : Option NakReason) : State :=
  s.modUnit f.side (fun u =>
    { u with answer := some ⟨f.header.src, f.header.dest, f.header.seq, nak.map NakReason.code⟩ })

/-- A directed frame is answered; any other is not (R90). -/
def State.answerIf (s : State) (f : TrunkFrame) (nak : Option NakReason) : State :=
  if f.directed then s.answer f nak else s

/-- The frame's recent-receipts entry is made, or renewed at the young end (R35). -/
def State.enterReceipt (s : State) (h : TrunkHeader) : State :=
  let e : Receipt := ⟨h.src, h.dest, h.seq⟩
  let kept := s.receipts.filter (· != e)
  { s with receipts := (if kept.length < Config.recentList then kept else kept.drop 1) ++ [e] }

/-- A frame answered ACK is taken by a block of the junction: proxy-acked and proxy delivered (R91, R104). -/
def State.countTaken (s : State) : State :=
  s.modEngine (fun q => { q with proxy := { q.proxy with acked := q.proxy.acked + 1, delivered := q.proxy.delivered + 1 } })

/-- A trunk record for a frame relayed as it arrived (R87, R92, R93, R96). -/
def relayRecord (f : TrunkFrame) (c : Chain) (proxyAcked : Bool) : TrunkRecord :=
  newRecord c .trunk true (trunkFrameLength f.header.len.toNat) f.header.len.toNat f.header.dest f.header.src f.header.kind f.header.seq
    (.side f.side) .ordinary proxyAcked

/-- The source identifier of a trunk source on the star (R98). -/
def State.starSource (s : State) (src : Byte) : Ident :=
  match s.dir src with
  | some r => r.ident.getD (trunkForm s.cfg.trunkPrefix src)
  | none => trunkForm s.cfg.trunkPrefix src

/-- A trunk frame's record on a star port's queue (R98). -/
def State.translated (s : State) (f : TrunkFrame) (c : Chain) (dest : Ident) (proxyAcked : Bool) : StarRecord :=
  newRecord c .trunk false (starFrameLength f.header.len.toNat) f.header.len.toNat dest (s.starSource f.header.src) f.header.kind f.header.seq
    (.side f.side) .ordinary proxyAcked

/-- A LOCAL frame for a star node is delivered: translated and placed on its port (R91). The second part is whether it is taken. (DEDUCED, unsafe: log entry 22.) -/
def State.deliver (s : State) (f : TrunkFrame) (c : Chain) (i : EntryNo) (loc : Option PortId) : State × Bool :=
  let t := (s.checkDir f.header.dest).checkDir f.header.src
  match loc, t.ownIdent f.header.dest i with
  | some k, some ident => t.placeStar k (t.translated f c ident f.directed)
  | _, _ => (t, false)

/-- A junction frame handed to the Alias Unit, decoded LOCAL: it is read, its chain released, and acted on (R91). -/
def State.aliasHandOff (s : State) (f : TrunkFrame) (c : Chain) : State :=
  match s.readHanded c.first .trunk (fun len => 6 + len) with
  | (t, none) => t
  | (t, some payload) =>
    if payloadWellFormed f.header.kind (some f.header.src) payload then
      (t.releaseFrom c.first).aliasFrame f.side (kindOf f.header.kind) f.header.seq false payload
    else t.malformedPayload c.first

/-- A LOCAL frame goes to a block of the junction with its chain (R91). (DEDUCED, unsafe: log entry 19.) -/
def State.toBlock (s : State) (f : TrunkFrame) (c : Chain) (i : EntryNo) : State :=
  let k := kindOf f.header.kind
  if k.isLending then s.aliasHandOff f c
  else match clientKindOf i with
    | .junction => s.inspectFrame (.station f.header.src) .trunk c
    | .printer => s.printFrame (.station f.header.src) k (some f.header.src) .trunk c
    | .starNode => s.releaseFrom c.first

/-- A frame decoded LOCAL, at its end (R90, R91; DEDUCED, unsafe: log entry 21). One for a block of the junction whose chain a recovery
within the event has taken is not handed over (R64). (DESIGN CHOICE, unsafe: log entry 81.) -/
def State.endLocal (s : State) (f : TrunkFrame) (i : EntryNo) (loc : Option PortId) : State :=
  let s := s.checkEntry i
  let take := taking (clientKindOf i) (kindOf f.header.kind)
  if f.duplicate then
    let t := (s.releaseChain f.chain).enterReceipt f.header
    if f.directed then (t.raiseDrop .reAcks).answer f none else t
  else if s.isHeld i ∧ f.directed = true then (((s.releaseChain f.chain).raiseDrop .held).answer f (some .refused))
  else
    match take, f.chain with
    | .refused, c => (s.releaseChain c).answerIf f (some .refused)
    | .discarded, c =>
      let t := (s.releaseChain c).raiseDrop .localDiscard
      if f.directed then ((t.countTaken).enterReceipt f.header).answer f none else t
    | .toBlock, some c =>
      if s.pool.recovering then s.answerIf f (some .busy)
      else if f.directed then (((s.countTaken).enterReceipt f.header).answer f none).toBlock f c i
      else s.toBlock f c i
    | .delivered, some c =>
      (match s.deliver f c i loc with
       | (t, true) => if f.directed then (t.enterReceipt f.header).answer f none else t
       | (t, false) =>
         if f.directed then (t.releaseFrom c.first).answer f (some .busy)
         else (t.raiseDrop .placement).releaseFrom c.first)
    | _, none => s.answerIf f (some .busy)

/-- A frame decoded RELAY, at its end (R90, R92). -/
def State.endRelay (s : State) (f : TrunkFrame) (y : Side) : State :=
  match f.chain with
  | none => s.answerIf f (some .busy)
  | some c =>
    match s.placeTrunk y (relayRecord f c f.directed) with
    | (t, true) => t.answerIf f none
    | (t, false) =>
      if f.directed then (t.releaseFrom c.first).answer f (some .busy)
      else (t.raiseDrop .placement).releaseFrom c.first

/-- A record in a queue that makes a flooded frame a repeat (R93). -/
def TrunkFrame.floodRepeats (f : TrunkFrame) (r : TrunkRecord) : Bool :=
  decide (r.origin = .side f.side) && (r.dest == f.header.dest) && (r.src == f.header.src) && (r.seq == f.header.seq) &&
  (r.kind == f.header.kind)

/-- A frame decoded FLOOD, at its end (R93). One marked OVERRUN holds no chain, is not placed, and is not compared with the records
either. (DESIGN CHOICE, unsafe: log entry 61.) -/
def State.endFlood (s : State) (f : TrunkFrame) : State :=
  match f.chain with
  | none => s
  | some c =>
    let y := otherSide f.side
    if (s.unit y).queue.any f.floodRepeats then (s.raiseDrop .floodRepeat).releaseFrom c.first
    else
      match s.placeTrunk y (relayRecord f c false) with
      | (t, true) => t
      | (t, false) => (t.raiseDrop .placement).releaseFrom c.first

/-- Step 1 of R96: a junction frame is handed to the Alias Unit, in RUN. The chain stays with the engine, but for one found
uncorrectable, which is released, and one whose reading a recovery ends, its frame abandoned (R64); the second part is the chain that
is left. -/
def State.broadcastHandOff (s : State) (f : TrunkFrame) (repeated : Bool) : State × Option Chain :=
  match f.chain with
  | none => (s, none)
  | some c =>
    if (kindOf f.header.kind).isLending && s.running then
      match s.readHanded c.first .trunk (fun len => 6 + len) with
      | (t, none) => (t, none)
      | (t, some payload) =>
        let u :=
          if payloadWellFormed f.header.kind (some f.header.src) payload then
            t.aliasFrame f.side (kindOf f.header.kind) f.header.seq repeated payload
          else t.raiseDecode .malformed
        (u, some c)
    else (s, some c)

/-- The placements of a trunk broadcast: the other side when JOINED, and every UP port for a DATAGRAM (R96, steps 4 and 5). -/
def State.broadcastPlacements (s : State) (f : TrunkFrame) (c : Chain) : List Placement :=
  (if s.joined (otherSide f.side) then [.trunk (otherSide f.side) (relayRecord f c false)] else []) ++
  (match kindOf f.header.kind with
   | .datagram => s.upPorts.map (fun p => .star p (s.translated f c starBroadcast false))
   | _ => [])

/-- A trunk broadcast, at its end (R96). (DEDUCED, unsafe: log entry 32.) A recovery begun within the event has the placements refused
(R106). (DESIGN CHOICE, unsafe: log entry 81.) -/
def State.endBroadcast (s : State) (f : TrunkFrame) : State :=
  let repeated := s.isRepeat f.header.src f.header.seq f.header.kind
  let (t, c) := s.broadcastHandOff f repeated
  if repeated then (t.raiseDrop .repeated).releaseChain c
  else
    let t := t.enterBroadcast f.header.src f.header.seq f.header.kind
    let t := match kindOf f.header.kind with | .datagram => t.checkDir f.header.src | _ => t
    match c with
    | none => t
    | some c => (State.placeAll c (.side f.side) (t.broadcastPlacements f c) true ⟨0, 0⟩ t).1

/-- A GOOD trunk frame other than ACK or NAK, at its end (R89). (DEDUCED, unsafe: log entry 40.) -/
def State.endTrunk (s : State) (f : TrunkFrame) : State :=
  let s := s.raiseDecode f.decode.count
  if f.echo then (s.raiseDrop .echo).releaseChain f.chain
  else if s.cfg.isReserved f.header.src then (s.raiseDrop .reservedSource).releaseChain f.chain
  else
    match f.decode with
    | .entry i loc => s.endLocal f i loc
    | .relay y _ => s.endRelay f y
    | .flood _ => s.endFlood f
    | .broadcast => s.endBroadcast f
    | .unreachable => (s.releaseChain f.chain).answerIf f (some .unreachable)
    | _ => s.releaseChain f.chain

/-! ### Star frames at their end (R99 to R101) -/

/-- A GOOD star frame as the engine is handed it (R50). -/
structure StarFrame where
  port : PortId
  header : StarHeader
  decode : Decode
  /-- The frame brought its node into the port's node list (R47). -/
  newcomer : Bool
  chain : Option Chain
deriving DecidableEq, Repr

/-- The alias entry that the node of a frame has in its port's node list. -/
def State.nodeEntry (s : State) (f : StarFrame) : Option EntryNo :=
  ((s.port f.port).nodes.find? (fun n => n.ident == f.header.src)).bind (·.entry)

/-- The node of a frame stands in its port's node list. -/
def State.nodeListed (s : State) (f : StarFrame) : Bool := (s.port f.port).nodes.any (fun n => n.ident == f.header.src)

/-- The three tests of R99: the source number of a frame that passes. A node that the frame itself brought in has had its request for
an entry made by R47, and none is made again. (DEDUCED, unsafe: log entry 62.) -/
def State.crossing (s : State) (f : StarFrame) : State × Option Byte :=
  let t := match s.nodeEntry f with | some i => s.checkEntry i | none => s
  match (t.nodeEntry f).bind t.boundNumber with
  | none =>
    let u := t.raiseDrop .noAlias
    (if (u.nodeEntry f).isNone ∧ u.nodeListed f = true ∧ f.newcomer = false then u.newNode f.port f.header.src else u, none)
  | some n =>
    if !(kindOf f.header.kind).mayCross then (t.raiseDrop .forbiddenKind, none)
    else if 512 < f.header.len.toNat then (t.raiseDrop .tooLarge, none)
    else (t, some n)

/-- A star frame's record on a trunk side (R99). -/
def crossingRecord (f : StarFrame) (c : Chain) (d src : Byte) : TrunkRecord :=
  newRecord c .star false (trunkFrameLength f.header.len.toNat) f.header.len.toNat d src f.header.kind f.header.seq (.star f.port) .ordinary false

/-- A star frame's record on another port (R100, R101). -/
def switchRecord (f : StarFrame) (c : Chain) (dest : Ident) (asStored : Bool) : StarRecord :=
  newRecord c .star asStored (starFrameLength f.header.len.toNat) f.header.len.toNat dest f.header.src f.header.kind f.header.seq (.star f.port)
    .ordinary false

/-- The placements of a star frame; each is refused if a pool recovery has begun within the event (R106). (DESIGN CHOICE, unsafe: log
entry 81.) -/
def State.placeStarFrame (s : State) (f : StarFrame) (c : Chain) (ts : List Placement) : State :=
  (State.placeAll c (.star f.port) ts true ⟨0, 0⟩ s).1

/-- A star frame that crosses to the trunk is tested and placed on sides (R99, R100). -/
def State.crossTo (s : State) (f : StarFrame) (c : Chain) (d : Byte) (sides : List Side) : State :=
  match s.crossing f with
  | (t, none) => t.releaseFrom c.first
  | (t, some n) => t.placeStarFrame f c (sides.map (fun y => .trunk y (crossingRecord f c d n)))

/-- A star broadcast (R100): the trunk sides first, then the other UP ports. (DEDUCED, unsafe: log entry 35.) -/
def State.starBroadcasts (s : State) (f : StarFrame) (c : Chain) : State :=
  let ports : List Placement :=
    match kindOf f.header.kind with
    | .datagram => (s.upPorts.filter (· != f.port)).map (fun p => .star p (switchRecord f c f.header.dest true))
    | _ => []
  match s.crossing f with
  | (t, none) => t.placeStarFrame f c ports
  | (t, some n) =>
    if t.isRepeat n f.header.seq f.header.kind then (t.raiseDrop .repeated).placeStarFrame f c ports
    else
      (t.enterBroadcast n f.header.seq f.header.kind).placeStarFrame f c
        (t.joinedSides.map (fun y => .trunk y (crossingRecord f c 255 n)) ++ ports)

/-- A star frame decoded LOCAL (R101). (DEDUCED, unsafe: log entry 36.) -/
def State.starLocal (s : State) (f : StarFrame) (c : Chain) (i : EntryNo) (loc : Option PortId) : State :=
  let k := kindOf f.header.kind
  match clientKindOf i with
  | .junction =>
    if k = .inspectReq then s.inspectFrame (.node f.port f.header.src) .star c
    else (s.raiseDrop .localDiscard).releaseFrom c.first
  | .printer =>
    if k.isPrintRequest then s.printFrame (.node f.port f.header.src) k none .star c
    else (s.raiseDrop .localDiscard).releaseFrom c.first
  | .starNode =>
    let t := s.checkEntry i
    if t.isHeld i then (t.raiseDrop .held).releaseFrom c.first
    else
      match t.entry i, loc with
      | some e, some j =>
        if j = f.port then t.releaseFrom c.first
        else if e.phase.boundNumber.isSome then t.placeStarFrame f c [.star j (switchRecord f c e.ident false)]
        else (t.raiseDrop .placement).releaseFrom c.first
      | _, _ => (t.raiseDrop .placement).releaseFrom c.first

/-- A GOOD star frame, at its end (R100). FLOOD goes to the sides JOINED at the frame's end. (DESIGN CHOICE, unsafe: log entry 60.) -/
def State.endStar (s : State) (f : StarFrame) : State :=
  let s := s.raiseDecode f.decode.count
  let k := kindOf f.header.kind
  if (k.isAnswer || k.isLending) && f.decode != .malformed then (s.raiseDrop .forbiddenKind).releaseChain f.chain
  else
    match f.decode, f.chain with
    | .switchTo j, some c => s.placeStarFrame f c [.star j (switchRecord f c f.header.dest true)]
    | .junction, some c => s.starLocal f c 0 none
    | .printer, some c => s.starLocal f c 1 none
    | .entry i loc, some c => s.starLocal f c i loc
    | .relay y n, some c => s.crossTo f c n [y]
    | .flood n, some c => s.crossTo f c n s.joinedSides
    | .broadcast, some c => s.starBroadcasts f c
    | _, c => s.releaseChain c

end Sys2Proof.Machine
end

