-- ==== Sys2Proof/Machine/Receive.lean ====
section
/-! DEFINITION. Reception on a trunk side (R29 to R35) and on a star port (R45 to R50): bytes as they arrive, the header staged, blocks
taken, and the end of a burst or frame; and what an answer or an ack miss does to the head record (R23 to R25). -/

namespace Sys2Proof.Machine

/-! ### A trunk burst as it arrives (R31) -/

/-- Changes the reception under way on a side. -/
def State.modRx (s : State) (x : Side) (f : Reception → Reception) : State := s.modUnit x (fun u => { u with rx := u.rx.map f })

/-- A reception received in full. -/
def Reception.isFull (r : Reception) : Bool := decide (r.mode = .full)

/-- A block is asked for the frame under way; a refusal makes it OVERRUN (R31, R58). -/
def State.askBlock (s : State) (x : Side) (c : Option Chain) : State :=
  match s.requestBlock (.side x) c with
  | (t, some c') => t.modRx x (fun r => { r with chain := some c' })
  | (t, none) => ((t.releaseChain c).modRx x (fun r => { r with overrun := true, chain := none })).raiseSide x .overruns

/-- The frame under way is marked duplicate when it is decoded LOCAL and an entry matches (R35). (DEDUCED, unsafe: log entry 20.) -/
def State.isReceipt (s : State) (h : TrunkHeader) (d : Decode) : Bool :=
  match d with
  | .entry _ _ => s.receipts.contains ⟨h.src, h.dest, h.seq⟩
  | _ => false

/-- The alias entry a decode names is read. -/
def State.checkNamed (s : State) (d : Decode) : State := match d with | .entry i _ => s.checkEntry i | _ => s

/-- The header is staged: decode, recent-receipts test and first block (R31). `bytes` are the staged six. A burst whose own decode
orders a pool recovery is ended by it for forwarding (R40), and its first block is asked for and refused all the same. (DESIGN CHOICE,
unsafe: log entry 93.) -/
def State.stageTrunk (s : State) (x : Side) (bytes : List Byte) : State :=
  match trunkHeaderOf bytes, (s.unit x).rx with
  | some h, some r =>
    let t := s.modUnit x (fun u => { u with staging := some h })
    if r.isFull && !r.jabber && !(kindOf h.kind).isAnswer && decide ((s.side x).state ≠ .partitioned) then
      let (t, d) := t.decodeTrunk x h
      let duplicate := t.isReceipt h d
      let t := (t.checkNamed d).modRx x (fun r => { r with decode := some d, duplicate := duplicate })
      if t.keepsTrunk h d duplicate then
        let t := t.askBlock x none
        match (t.unit x).rx.bind (·.chain) with
        | some c => State.storeChain [c.last] 0 bytes t
        | none => t
      else t
    else t
  | _, _ => s

/-- A byte of a kept frame goes to its block, one more being asked for when the block in hand is full; `n` is its place, from 1. -/
def State.keepByte (s : State) (x : Side) (n : Nat) (c : Chain) (b : Byte) : State :=
  let t := if (n - 1) % 128 = 0 then s.askBlock x (some c) else s
  match (t.unit x).rx.bind (·.chain) with
  | some c' => t.store (blockAddr c'.last ((n - 1) % 128)) b
  | none => t

/-- A byte of a burst arrives. -/
def State.feedByte (s : State) (x : Side) (b : Byte) : State :=
  match (s.unit x).rx with
  | none => s
  | some r =>
    if r.mode = .ignored then s
    else
      let bytes := r.bytes ++ [b]
      let n := bytes.length
      let t := s.modRx x (fun r => { r with bytes := bytes })
      if n = 6 then t.stageTrunk x bytes
      else if n = 521 then (t.releaseChain r.chain).modRx x (fun r => { r with chain := none })
      else match r.chain with
        | some c => t.keepByte x n c b
        | none => t

/-- Bytes of a burst arrive. (DESIGN CHOICE, safe: log entry 5.) -/
def State.feed (s : State) (x : Side) (bytes : List Byte) : State := bytes.foldl (fun t b => t.feedByte x b) s

/-! ### The head record's answer (R23 to R25) -/

/-- Changes the head record of a side. -/
def State.modHead (s : State) (x : Side) (f : TrunkRecord → TrunkRecord) : State :=
  s.modUnit x (fun u => { u with queue := match u.queue with | [] => [] | r :: rest => f r :: rest })

/-- The side is PARTITIONING. -/
def State.partitioning (s : State) (x : Side) : Bool := decide ((s.side x).state = .partitioning)

/-- An ack miss (R25); on a PARTITIONING side the record is FLUSHED (R38). -/
def State.ackMiss (s : State) (x : Side) : State :=
  match (s.unit x).queue with
  | [] => s
  | r :: _ =>
    let t := ((s.modWindow x (fun w => { w with am := bump w.am })).raiseSide x .ackMisses).modHead x
      (fun r => { r with ackMisses := r.ackMisses + 1, phase := .missed })
    if s.partitioning x then t.completeHead x .flushed
    else if Config.ackLimit ≤ r.ackMisses + 1 then t.completeHead x .ackLimit
    else t

/-- An answer is taken for the head record (R24); on a PARTITIONING side a NAK flushes it (R38). -/
def State.takeAnswer (s : State) (x : Side) (kind : Kind) (reason : NakReason) : State :=
  match (s.unit x).queue with
  | [] => s
  | r :: _ =>
    match kind with
    | .ack => s.completeHead x .delivered
    | _ =>
      if s.partitioning x then s.completeHead x .flushed
      else
        match reason with
        | .busy =>
          let t := s.modHead x (fun r => { r with busyCount := r.busyCount + 1, phase := .busy (s.now + Config.busyWait) })
          if Config.busyLimit ≤ r.busyCount + 1 then t.completeHead x .busyLimit else t
        | .refused | .unreachable => s.completeHead x .refused

/-- A GOOD frame is an answer to a record (R23). -/
def answers (h : TrunkHeader) (r : TrunkRecord) : Bool :=
  (kindOf h.kind).isAnswer && (h.dest == r.src) && (h.src == r.dest) && (h.seq == r.seq)

/-- The head record awaits an answer and a burst has begun in its window. -/
def TrunkUnit.settling (u : TrunkUnit) : Option TrunkRecord :=
  match u.queue with
  | [] => none
  | r :: _ => match r.phase with | .awaiting _ true => some r | _ => none

/-- The burst that settles the head record's attempt has ended: its answer is taken, or it is an ack miss. `h` is the header of a
GOOD frame, `bytes` the burst. -/
def State.settleAttempt (s : State) (x : Side) (h : Option TrunkHeader) (bytes : List Byte) : State :=
  match (s.unit x).settling, h with
  | none, _ => s
  | some r, some h =>
    if answers h r then s.takeAnswer x (kindOf h.kind) (nakReason h.len.toNat (bytes.getD 6 0)) else s.ackMiss x
  | some _, none => s.ackMiss x

/-! ### The end of a burst (R29, R32, R33) -/

/-- The class of a burst is counted (R32); a jabber was counted at its mark. -/
def State.countBurst (s : State) (x : Side) (c : BurstClass) (inAckWindow : Bool) : State :=
  match c with
  | .good => s.raiseSide x .good
  | .checkError => (s.modWindow x (fun w => { w with ce := bump w.ce })).raiseSide x .checkErrors
  | .runt =>
    if inAckWindow then s.raiseSide x .fragments
    else (s.modWindow x (fun w => { w with ru := bump w.ru })).raiseSide x .runts
  | .overlong => s.raiseSide x .overlong
  | .jabber => s

/-- The echo test (R33). -/
def State.isEcho (s : State) (h : TrunkHeader) : Bool :=
  s.transmissions.any (fun t => (t.src == h.src) && (t.seq == h.seq) && (t.kind == h.kind))

/-- The end of a frame's chain is marked, if it holds one (R33, R45). Once a recovery within the event has given the chain up, its
blocks are those of the rebuilt pool, and none is marked (R64). -/
def State.markFrame (s : State) (c : Option Chain) : State :=
  match c with
  | some c => if s.pool.recovering then s else s.markEnd c.last
  | none => s

/-- A GOOD frame other than ACK or NAK is handed on (R33): loop evidence, learning, and the engine, which finds its placements refused
when a recovery has begun within the event (R106). (DESIGN CHOICE, unsafe: log entry 81.) -/
def State.handOn (s : State) (x : Side) (h : TrunkHeader) (r : Reception) (d : Decode) : State :=
  let echo := s.isEcho h
  let t := s.markFrame r.chain
  let t := if echo && t.running then t.ownEvidence else t
  let t := t.learn x h.src (kindOf h.kind) echo
  t.endTrunk ⟨x, h, d, echo, r.duplicate, r.overrun, r.chain⟩

/-- A GOOD frame received in full on a side that is not PARTITIONED: an ACK or NAK teaches the directory (R29), any other frame is
handed on. -/
def State.goodBurst (s : State) (x : Side) (h : TrunkHeader) (r : Reception) : State :=
  if (kindOf h.kind).isAnswer then (s.learn x h.src (kindOf h.kind) false).releaseChain r.chain
  else
    match r.decode with
    | some d => s.handOn x h r d
    | none => s.releaseChain r.chain

/-- A unit whose burst has just ended (R19, R31): staging empty, the quiet gap begun, and the line reserved behind a burst staged as a
directed frame. -/
def TrunkUnit.burstOver (u : TrunkUnit) (now : Time) : TrunkUnit :=
  { u with
    rx := none
    staging := none
    idleSince := some now
    quiet := false
    reservedUntil :=
      match u.staging with
      | some h => if directed h.kind h.dest then now + Config.slot else u.reservedUntil
      | none => u.reservedUntil }

/-- A GOOD frame has ended: a directed one has an ack window behind it (R32). (DEDUCED, unsafe: log entry 56.) -/
def TrunkUnit.heard (u : TrunkUnit) (h : TrunkHeader) (now : Time) : TrunkUnit :=
  if directed h.kind h.dest then { u with heardUntil := now + Config.slot } else u

/-- The class a reception on a side ends with (R32). -/
def Reception.trunkClass (r : Reception) : BurstClass := if r.jabber then .jabber else classifyTrunk r.bytes

/-- A burst has ended, all its bytes in `r`. -/
def State.burstDone (s : State) (x : Side) (r : Reception) : State :=
  let t := s.modUnit x (fun u => u.burstOver s.now)
  if r.mode = .ignored then t
  else
    let cls := r.trunkClass
    let good := if cls = .good then trunkHeaderOf r.bytes else none
    let t := match good with | some h => t.modUnit x (fun u => u.heard h s.now) | none => t
    let t := t.countBurst x cls r.inAckWindow
    let t := if r.settles then t.settleAttempt x good r.bytes else t
    match good with
    | some h =>
      if r.isFull && decide ((t.side x).state ≠ .partitioned) then t.goodBurst x h r else t.releaseChain r.chain
    | none => t.releaseChain r.chain

/-- Another station's carrier that was no burst ends: the quiet gap begins if the unit is silent (R21; log entry 54). -/
def TrunkUnit.carrierOver (u : TrunkUnit) (now : Time) : TrunkUnit :=
  if u.otherCarrier then
    (match u.sending with
     | .silent => { u with otherCarrier := false, idleSince := some now, quiet := false }
     | _ => { u with otherCarrier := false })
  else u

/-- Carrier ends, the last bytes of the burst being `bytes`. -/
def State.burstEnds (s : State) (x : Side) (bytes : List Byte) : State :=
  let t := s.feed x bytes
  match (t.unit x).rx with
  | some r => t.burstDone x r
  | none => t.modUnit x (fun u => u.carrierOver t.now)

/-! ### A star frame as it arrives (R45) -/

/-- Changes the reception under way on a port. -/
def State.modPortRx (s : State) (p : PortId) (f : Reception → Reception) : State :=
  s.modPort p (fun q => { q with rx := q.rx.map f })

/-- A block is asked for the star frame under way; a refusal makes it OVERRUN. -/
def State.askPortBlock (s : State) (p : PortId) (c : Option Chain) : State :=
  match s.requestBlock (.star p) c with
  | (t, some c') => t.modPortRx p (fun r => { r with chain := some c' })
  | (t, none) => ((t.releaseChain c).modPortRx p (fun r => { r with overrun := true, chain := none })).raisePort p .overruns

/-- The star header is staged: decode and first block (R45). `bytes` are the staged sixteen. A frame whose own decode orders a pool
recovery is ended by it for forwarding (R54), and its first block is asked for and refused all the same. (DESIGN CHOICE, unsafe: log
entry 93.) -/
def State.stageStar (s : State) (p : PortId) (bytes : List Byte) : State :=
  match starHeaderOf bytes, (s.port p).rx with
  | some h, some r =>
    if r.isFull then
      let (t, d) := (s.modPort p (fun q => { q with staging := some h })).decodeStar p h
      let t := t.modPortRx p (fun r => { r with decode := some d })
      if keepsStar h d then
        let t := t.askPortBlock p none
        match (t.port p).rx.bind (·.chain) with
        | some c => State.storeChain [c.last] 0 bytes t
        | none => t
      else t
    else s
  | _, _ => s

/-- A byte of a kept star frame goes to its block. -/
def State.keepPortByte (s : State) (p : PortId) (n : Nat) (c : Chain) (b : Byte) : State :=
  let t := if (n - 1) % 128 = 0 then s.askPortBlock p (some c) else s
  match (t.port p).rx.bind (·.chain) with
  | some c' => t.store (blockAddr c'.last ((n - 1) % 128)) b
  | none => t

/-- A byte of a star frame arrives. -/
def State.feedPortByte (s : State) (p : PortId) (b : Byte) : State :=
  match (s.port p).rx with
  | none => s
  | some r =>
    if r.mode = .ignored then s
    else
      let bytes := r.bytes ++ [b]
      let n := bytes.length
      let t := s.modPortRx p (fun r => { r with bytes := bytes })
      if n = 16 then t.stageStar p bytes
      else if n = 1521 then (t.releaseChain r.chain).modPortRx p (fun r => { r with chain := none })
      else match r.chain with
        | some c => t.keepPortByte p n c b
        | none => t

/-- The first bytes of a frame begun at `began` are reported: one that was coming when the port left UP, in the time it was UP, adds
one to the total of the cause (R43, step 3). (DESIGN CHOICE, unsafe: log entry 104.) -/
def State.countLeft (s : State) (p : PortId) (began : Time) : State :=
  match (s.port p).leftUp with
  | some l =>
    if l.since ≤ began ∧ began < l.left then
      (s.modPort p (fun q => { q with leftUp := none })).raisePort p (if l.isolated then .isolatedDiscards else .cut)
    else s
  | none => s

/-- How an UP port receives a frame begun at `began`: not when it began before the port was UP (R44), and for its class alone when a
pool recovery has come since (R54; log entry 104). -/
def Port.receives (q : Port) (began : Time) : RxMode :=
  if began < q.ignoreBefore then .ignored else if began < q.countBefore then .countOnly else .full

/-- A reception that begins with bytes just arrived, the first of them `len` byte times ago (R44, R46). None begins on a port that is
neither UP nor ISOLATED, and a frame begun too early is ignored, counted alone when it was coming as the port left UP. -/
def State.beginStarFrame (s : State) (p : PortId) (len : Nat) : State :=
  let began := s.now - Config.starByte * len
  let fresh (m : RxMode) (q : Port) : Port := { q with rx := some ⟨began, m, [], none, false, false, none, false, false, false⟩ }
  match (s.port p).rx with
  | some _ => s
  | none =>
    let t := s.countLeft p began
    match (t.port p).state with
    | .up => t.modPort p (fun q => fresh (q.receives began) q)
    | .isolated => t.modPort p (fun q => fresh (if began < q.ignoreBefore then .ignored else .countOnly) q)
    | .disabled | .down => t

/-- Bytes of a star frame arrive. -/
def State.feedPort (s : State) (p : PortId) (bytes : List Byte) : State :=
  bytes.foldl (fun t b => t.feedPortByte p b) (s.beginStarFrame p bytes.length)

/-! ### Source checks (R47, R48) -/

/-- A node joins a port's list at its tail. -/
def State.joinNode (s : State) (p : PortId) (n : Node) : State := s.modPort p (fun q => { q with nodes := q.nodes ++ [n] })

/-- A node leaves a port's list. -/
def State.dropNode (s : State) (p : PortId) (i : Ident) : State :=
  s.modPort p (fun q => { q with nodes := q.nodes.filter (fun n => n.ident != i) })

/-- A node heard on port `p` while in port `j`'s list has moved (R48); the second part is whether its frame is handed on. -/
def State.moveNode (s : State) (p j : PortId) (i : Ident) : State × Bool :=
  let entry := ((s.port j).nodes.find? (fun n => n.ident == i)).bind (·.entry)
  let t := s.dropNode j i
  if (t.port p).nodes.length < Config.nodeList then
    let t := t.joinNode p ⟨i, s.now, entry⟩
    (match entry with | some e => t.moveEntry e p | none => t, true)
  else
    let t := t.raisePort p .nodeFull
    (match entry with | some e => t.releaseEntry e | none => t, false)

/-- The source check of a GOOD frame (R47); the second part is whether it is handed on. -/
def State.checkSource (s : State) (p : PortId) (j : Ident) : State × Bool :=
  if malformedSource j then (s, true)
  else if (trunkFormNumber s.cfg.trunkPrefix j).isSome ∨ s.cfg.baseId = some j ∨ s.cfg.printerId = some j then
    (s.raisePort p .sourceClash, false)
  else if (s.port p).nodes.any (fun n => n.ident == j) then
    (s.modPort p (fun q => { q with nodes := q.nodes.map (fun n => if n.ident = j then { n with lastHeard := s.now } else n) }), true)
  else
    match s.portOfNode j with
    | some k => s.moveNode p k j
    | none =>
      if (s.port p).nodes.length < Config.nodeList then ((s.joinNode p ⟨j, s.now, none⟩).newNode p j, true)
      else (s.raisePort p .nodeFull, false)

/-! ### The end of a star frame (R46, R50) -/

/-- The port total of a class (R46). -/
def BurstClass.portTotal : BurstClass → PortTotal
  | .good => .good
  | .checkError => .checkErrors
  | .runt => .runts
  | .overlong | .jabber => .overlong

/-- The class of a frame on an UP port is counted (R46). -/
def State.countStar (s : State) (p : PortId) (c : BurstClass) (broadcast : Bool) : State :=
  let t := s.raisePort p c.portTotal
  match c with
  | .good =>
    if broadcast then
      (t.modPort p (fun q => { q with window := { q.window with bc := bump q.window.bc } })).raisePort p .broadcasts
    else t
  | .checkError => t.modPort p (fun q => { q with window := { q.window with ce := bump q.window.ce } })
  | .overlong => t.modPort p (fun q => { q with window := { q.window with ov := bump q.window.ov } })
  | .runt | .jabber => t

/-- A GOOD frame on an UP port goes through its source check and is handed to the engine (R47, R50), which finds its placements refused
when a recovery has begun within the event (R106). (DESIGN CHOICE, unsafe: log entry 81.) -/
def State.goodStar (s : State) (p : PortId) (h : StarHeader) (r : Reception) : State :=
  let (t, on) := s.checkSource p h.src
  match r.decode with
  | some d =>
    if on && !r.overrun && r.isFull then
      (t.markFrame r.chain).endStar ⟨p, h, d, (s.portOfNode h.src).isNone, r.chain⟩
    else t.releaseChain r.chain
  | none => t.releaseChain r.chain

/-- A star frame has ended, all its bytes in `r`. On an ISOLATED port a GOOD broadcast raises good frames alone. (DESIGN CHOICE, unsafe:
log entry 57.) -/
def State.starDone (s : State) (p : PortId) (r : Reception) : State :=
  let t := s.modPort p (fun q => { q with rx := none, staging := none })
  if r.mode = .ignored then t
  else
    let cls := classifyStar r.bytes
    match (t.port p).state with
    | .isolated => ((t.raisePort p .isolatedDiscards).raisePort p cls.portTotal).releaseChain r.chain
    | .up =>
      (match starHeaderOf r.bytes with
       | some h =>
         let t := t.countStar p cls (decide (h.dest = starBroadcast))
         if cls = .good then t.goodStar p h r else t.releaseChain r.chain
       | none => (t.countStar p cls false).releaseChain r.chain)
    | .disabled | .down => t.releaseChain r.chain

/-- A star frame ends, its last bytes being `bytes`. -/
def State.starEnds (s : State) (p : PortId) (bytes : List Byte) : State :=
  let t := s.feedPort p bytes
  match (t.port p).rx with
  | some r => t.starDone p r
  | none => t

end Sys2Proof.Machine
end

