-- ==== Sys2Proof/Machine/SettingsImage.lean ====
section
/-! DEFINITION. The settings image (R15, R16): its validity, its fields, their clamping (R179), and the layout in which the settings
in force are reported (R182). -/

namespace Sys2Proof.Machine

/-- The image is valid: 64 bytes answered, the signature, and a sum of 0 modulo 256 (R16). -/
def imageValid (image : List Byte) : Bool :=
  decide (image.length = 64) && (image.getD 0 0 == 68) && (image.getD 1 0 == 115) &&
  decide (image.foldl (fun n b => n + b.toNat) 0 % 256 = 0)

/-- A one-byte field of the image. -/
def field8 (image : List Byte) (k : Nat) : Nat := (image.getD k 0).toNat

/-- A two-byte field of the image, high byte first. -/
def field16 (image : List Byte) (k : Nat) : Nat := 256 * field8 image k + field8 image (k + 1)

/-- The fields as they stand in the image (R15). -/
def readSettings (image : List Byte) : Settings :=
  let b := fun k => image.getD k 0
  { baseId := some (identOf (b 3) (b 4) (b 5) (b 6) (b 7) (b 8))
    trunkPrefix := b 9 ++ b 10 ++ b 11 ++ b 12 ++ b 13
    lendLow := field8 image 14
    lendHigh := field8 image 15
    reservedLow := field8 image 16
    adminList := [b 17, b 18, b 19, b 20]
    partitionThreshold := field16 image 21
    restoreThreshold := field16 image 23
    announcePeriod := field8 image 25
    aliasHold := field16 image 26
    directoryAge := field16 image 28
    quarantineTime := field16 image 30
    starErrorLimit := field8 image 32
    starBroadcastLimit := field16 image 33
    starHold := field16 image 35
    portMask := b 37
    printEnable := b 38
    separatorDefault := b 39
    spoolCap := field8 image 40
    spoolFloor := field8 image 41
    portQuota := field8 image 42
    jobIdle := field16 image 43
    nodeAge := field16 image 45 }

/-- A value set to the nearer limit of its range. -/
def clampNat (lo hi v : Nat) : Nat := max lo (min hi v)

/-- A base identifier set to the nearer limit of its range, as an unsigned value. -/
def clampIdent (i : Ident) : Ident := if i = 0 then 1 else if 0xFFFFFFFFFFFD#48 < i then 0xFFFFFFFFFFFD#48 else i

/-- An admin list entry of 255 becomes 254. -/
def clampAdmin (n : Byte) : Byte := if n = 255 then 254 else n

/-- The lending range after the three relations of R179: (lendLow, lendHigh, reservedLow). -/
def relateRanges (low high reserved : Nat) : Nat × Nat × Nat :=
  let reserved := max reserved 9
  let high := min high (reserved - 1)
  if high < low + 7 then (if 8 ≤ high then (high - 7, high, reserved) else (1, 8, reserved)) else (low, high, reserved)

/-- The fields clamped one by one, and the relations made to hold (R179). -/
def clampSettings (c : Settings) : Settings :=
  let ranges := relateRanges (clampNat 1 254 c.lendLow) (clampNat 1 254 c.lendHigh) (clampNat 1 255 c.reservedLow)
  let threshold := clampNat 64 1000 c.partitionThreshold
  { c with
    baseId := c.baseId.map clampIdent
    lendLow := ranges.1
    lendHigh := ranges.2.1
    reservedLow := ranges.2.2
    adminList := c.adminList.map clampAdmin
    partitionThreshold := threshold
    restoreThreshold := min c.restoreThreshold (threshold - 32)
    announcePeriod := clampNat 2 60 c.announcePeriod
    aliasHold := clampNat 10 600 c.aliasHold
    directoryAge := clampNat 60 3600 c.directoryAge
    quarantineTime := clampNat 10 600 c.quarantineTime
    starErrorLimit := clampNat 4 255 c.starErrorLimit
    starBroadcastLimit := clampNat 20 2000 c.starBroadcastLimit
    starHold := clampNat 5 300 c.starHold
    spoolCap := clampNat 32 192 c.spoolCap
    spoolFloor := clampNat 0 64 c.spoolFloor
    portQuota := clampNat 16 128 c.portQuota
    jobIdle := clampNat 10 600 c.jobIdle
    nodeAge := clampNat 30 3600 c.nodeAge }

/-- The numeric fields of the settings, with the bit of the settings status each one's flag has (R182). -/
def flagFields (c : Settings) : List (Nat × Nat) :=
  [(0, (c.baseId.getD 0).toNat), (2, c.lendLow), (3, c.lendHigh), (4, c.reservedLow),
   (5, (c.adminList.getD 0 0).toNat), (6, (c.adminList.getD 1 0).toNat), (7, (c.adminList.getD 2 0).toNat),
   (8, (c.adminList.getD 3 0).toNat), (9, c.partitionThreshold), (10, c.restoreThreshold), (11, c.announcePeriod),
   (12, c.aliasHold), (13, c.directoryAge), (14, c.quarantineTime), (15, c.starErrorLimit), (16, c.starBroadcastLimit),
   (17, c.starHold), (21, c.spoolCap), (22, c.spoolFloor), (23, c.portQuota), (24, c.jobIdle), (25, c.nodeAge)]

/-- The settings status of a load: a flag for each field that clamping changed (R179). -/
def clampedFlags (raw taken : Settings) : BitVec 32 :=
  ((flagFields raw).zip (flagFields taken)).foldl
    (fun flags m => if m.1.2 = m.2.2 then flags else flags ||| (1#32 <<< m.1.1)) 0

/-- Bytes 3 to 46 of the image layout, with the values in force (R182). -/
def settingsBytes (c : Settings) : List Byte :=
  bytesOfIdent (c.baseId.getD 0) ++
  [c.trunkPrefix.extractLsb' 32 8, c.trunkPrefix.extractLsb' 24 8, c.trunkPrefix.extractLsb' 16 8,
   c.trunkPrefix.extractLsb' 8 8, c.trunkPrefix.extractLsb' 0 8] ++
  [byte1 c.lendLow, byte1 c.lendHigh, byte1 c.reservedLow] ++ c.adminList ++
  bytes16 c.partitionThreshold ++ bytes16 c.restoreThreshold ++ [byte1 c.announcePeriod] ++ bytes16 c.aliasHold ++
  bytes16 c.directoryAge ++ bytes16 c.quarantineTime ++ [byte1 c.starErrorLimit] ++ bytes16 c.starBroadcastLimit ++
  bytes16 c.starHold ++ [c.portMask, c.printEnable, c.separatorDefault, byte1 c.spoolCap, byte1 c.spoolFloor, byte1 c.portQuota] ++
  bytes16 c.jobIdle ++ bytes16 c.nodeAge

end Sys2Proof.Machine
end

