-- ==== Sys2Proof/Machine/Inspect.lean ====
section
/-! DEFINITION. Inspection (section 11.2): the value of each item class (R182), what a READ-CLEAR clears (R181, R105, R171), and the
judging of requests (R181). -/

namespace Sys2Proof.Machine

/-! ### Fields of a value -/

/-- A number of 0 to 65,535 in two bytes, a larger one as 65,535. -/
def two (n : Nat) : List Byte := bytes16 (min n 65535)

/-- A field absent in one byte. -/
def absent1 : List Byte := [255]

/-- A field absent in two bytes. -/
def absent2 : List Byte := [255, 255]

/-- A flag in one byte. -/
def flag1 (b : Bool) : List Byte := [if b then 1 else 0]

/-- An optional byte. -/
def opt1 (b : Option Byte) : List Byte := match b with | some v => [v] | none => absent1

/-- An identifier, or six zero pairs. -/
def optIdent (i : Option Ident) : List Byte := bytesOfIdent (i.getD 0)

/-- The whole seconds left to a time, where there is one. -/
def leftTo (now : Time) (t : Option Time) : List Byte :=
  match t with
  | some t => two ((t - now) / Config.sec)
  | none => absent2

/-- The age of a time in whole seconds, where there is one. -/
def ageOf (now : Time) (t : Option Time) : List Byte :=
  match t with
  | some t => two ((now - t) / Config.sec)
  | none => absent2

/-- Every two-byte counter of a tally, in order. -/
def tallyBytes {n : Nat} (t : Tally n) : List Byte := t.toList.flatMap two

/-! ### Enumerated fields, by position (R182) -/

/-- Position of a side state. -/
def SideState.code : SideState → Byte
  | .joined => 0 | .partitioning => 1 | .partitioned => 2

/-- Position of a partition reason. -/
def PartitionReason.code : PartitionReason → Byte
  | .health => 0 | .loop => 1 | .admin => 2

/-- Position of a port state. -/
def PortState.code : PortState → Byte
  | .disabled => 0 | .down => 1 | .up => 2 | .isolated => 3

/-- Position of a client kind. -/
def ClientKind.code : ClientKind → Byte
  | .junction => 0 | .printer => 1 | .starNode => 2

/-- Position of an alias entry's state. -/
def AliasPhase.code : AliasPhase → Byte
  | .unbound => 0 | .probing _ _ => 1 | .bound _ => 2 | .held _ _ => 3 | .conflict _ => 4 | .failed _ => 5

/-- Position of a device state. -/
def DeviceState.code : DeviceState → Byte
  | .loading => 0 | .run => 1 | .relayOnly => 2

/-- Position of a store (R169). -/
def storeCode : Store → Byte
  | .blockMemory => 0 | .blockRecords => 1 | .directory => 2 | .aliasTable => 3 | .roster => 4 | .jobRecords => 5

/-- Position of a consumer (R171). -/
def Consumer.code : Consumer → Byte
  | .trunkSend => 0 | .starSend => 1 | .print => 2 | .localRead => 3 | .copy => 4 | .pool => 5 | .directory => 6
  | .lending => 7 | .roster => 8 | .job => 9 | .scrubber => 10

/-- Position of a location in the list of ingress tags (R55). -/
def sideCode : Side → Byte
  | .west => 0
  | .east => 1

/-- Position of an OWN-ALIAS location. -/
def ownCode : Option PortId → Byte
  | none => 8
  | some p => byte1 (p.val + 2)

/-! ### The values of the item classes (R182) -/

/-- The SIDE item. -/
def State.sideValue (s : State) (x : Side) : List Byte :=
  let h := s.side x
  let w := h.lastWindow
  two h.score ++ [h.state.code] ++ opt1 (h.reason.map PartitionReason.code) ++ [byte1 h.cleanRun] ++ flag1 h.pendingRestore ++
  leftTo s.now h.loopHold ++
  two w.ce ++ two w.ru ++ two w.lc ++ two w.jb ++ two w.am ++ two w.tx ++ two w.co ++ flag1 w.lf ++
  flag1 s.health.assessment.isSome ++ leftTo s.now s.health.assessment ++ flag1 s.health.ownLooped

/-- A node slot of the PORT item. -/
def nodeValue (now : Time) (n : Option Node) : List Byte :=
  optIdent (n.map (·.ident)) ++ opt1 ((n.bind (·.entry)).map (fun i => byte1 i.val)) ++ ageOf now (n.map (·.lastHeard))

/-- The PORT item. -/
def State.portValue (s : State) (p : PortId) : List Byte :=
  let q := s.port p
  [q.state.code, byte1 q.k, byte1 q.queue.length] ++ leftTo s.now q.holdEnd ++ ageOf s.now q.lastRestore ++
  [byte1 q.nodes.length] ++ (List.range 6).flatMap (fun k => nodeValue s.now q.nodes[k]?)

/-- The probe time of a clock. -/
def ProbeClock.elapsed (now : Time) : ProbeClock → Time
  | .running start => now - start
  | .paused kept => kept

/-- The ALIAS item. (DESIGN CHOICE, unsafe: log entry 44.) -/
def State.entryValue (s : State) (i : EntryNo) : List Byte :=
  match s.entry i with
  | none => flag1 false ++ absent1 ++ optIdent none ++ [255, 255, 255, 255, 255] ++ absent2 ++ absent2 ++ absent1
  | some e =>
    flag1 true ++ [e.client.code] ++ bytesOfIdent e.ident ++ opt1 (e.port.map (fun p => byte1 (p.val + 1))) ++ [e.phase.code] ++
    opt1 e.phase.number ++ [byte1 e.tried, byte1 e.probes] ++
    (match e.phase with | .probing _ c => two (c.elapsed s.now / Config.ms) | _ => absent2) ++
    (match e.phase with | .held _ t => leftTo s.now (some t) | _ => absent2) ++
    (match e.phase with | .failed t => [byte1 (min 254 ((t - s.now) / Config.sec))] | _ => absent1)

/-- Position of a record's kind (R69). -/
def Holder.code : Holder → Byte
  | .legacy _ => 0 | .remote _ _ _ => 1 | .own _ _ _ => 2

/-- A record's location (R69). -/
def Holder.location : Holder → Byte
  | .legacy x | .remote x _ _ => sideCode x
  | .own loc _ _ => ownCode loc

/-- A record's alias index, where its kind has one. -/
def Holder.index : Holder → Option Byte
  | .own _ _ i => some (byte1 i.val)
  | _ => none

/-- A record's owning peer, where its kind has one. -/
def Holder.peer : Holder → Option Ident
  | .remote _ _ p => some p
  | _ => none

/-- The DIRECTORY item. -/
def State.dirValue (s : State) (n : Byte) : List Byte :=
  match s.dir n with
  | none => flag1 false ++ absent1 ++ absent1 ++ optIdent none ++ absent1 ++ optIdent none ++ absent2 ++ absent1 ++ absent2
  | some r =>
    flag1 true ++ [r.holder.code, r.holder.location] ++ optIdent r.ident ++ opt1 r.holder.index ++ optIdent r.holder.peer ++
    ageOf s.now (some r.lastHeard) ++ [byte1 r.moves] ++ leftTo s.now r.quarantine

/-- The ROSTER item. -/
def State.rosterValue (s : State) (j : RosterNo) : List Byte :=
  match s.peer j with
  | none => flag1 false ++ optIdent none ++ absent1 ++ absent2 ++ absent2 ++ [255, 255, 255, 255, 255, 255]
  | some e =>
    flag1 true ++ bytesOfIdent e.ident ++ [e.number] ++ ageOf s.now e.heard.west ++ ageOf s.now e.heard.east ++
    opt1 e.seq.west ++ opt1 e.seq.east ++ flag1 e.looped ++ flag1 e.printer.isSome ++ opt1 (e.printer.map (·.1)) ++
    opt1 (e.printer.map (·.2))

/-- The JOB item. -/
def State.jobValue (s : State) (k : Slot) : List Byte :=
  match s.job k with
  | none => flag1 false ++ List.replicate 3 255 ++ List.replicate 16 0 ++ List.replicate 4 255 ++ absent2 ++ List.replicate 4 255 ++
      absent2 ++ absent1 ++ absent2 ++ absent2 ++ absent2
  | some j =>
    flag1 true ++ [j.number] ++ opt1 j.originator ++ [byte1 j.name.length] ++ (j.name ++ List.replicate (16 - j.name.length) 0) ++
    [byte1 j.copies] ++ flag1 j.separator ++ [j.state.code, j.reason.code] ++ two j.nextIndex ++ [byte1 j.window] ++
    (match j.chain with
     | some c => [byte1 c.first.val, byte1 c.last.val, byte1 c.count]
     | none => [255, 255, 255]) ++
    two j.printed ++ [byte1 j.copiesLeft] ++ ageOf s.now (some j.openTime) ++ ageOf s.now (some j.lastActivity) ++
    ageOf s.now j.finished

/-- The POOL item. -/
def State.poolValue (s : State) : List Byte :=
  let p := s.pool
  two p.free ++ two p.forwardingHeld ++ [byte1 p.spoolHeld, byte1 p.retiredCount] ++ p.held.toList.map byte1 ++
  opt1 (p.head.map (fun b => byte1 b.val)) ++ opt1 (p.tail.map (fun b => byte1 b.val)) ++ tallyBytes p.counters ++
  (List.range 35).map (fun k => match p.retired[k]? with | some b => byte1 b.val | none => 0)

/-- The CAPTURE item. -/
def State.captureValue (s : State) : List Byte :=
  let c := s.check
  flag1 c.capture.isSome ++
  (match c.capture with
   | some k => [storeCode k.loc.store, byte1 k.loc.index, byte1 k.loc.offset, k.syndrome.zeroExtend 8, k.consumer.code]
   | none => [255, 255, 255, 255, 255]) ++
  [byte1 c.further] ++ two c.corrected ++ flag1 c.lastCorrected.isSome ++
  (match c.lastCorrected with
   | some l => [storeCode l.store, byte1 l.index, byte1 l.offset]
   | none => [255, 255, 255]) ++
  two c.scrubPos

/-- The counters of R167 of a side. -/
def sideCounters (h : SideHealth) : List Byte :=
  two h.partitionsHealth ++ two h.partitionsLoop ++ two h.partitionsAdmin ++ two h.restores

/-- The proxy accounting set (R86): four bytes each, and proxy queued in two. -/
def proxyBytes (p : Proxy) : List Byte :=
  bytes32 p.acked.toNat ++ bytes32 p.delivered.toNat ++ p.losses.toList.flatMap (fun c => bytes32 c.toNat) ++ two p.queued

/-- A port's totals and its isolations. -/
def State.portCounters (s : State) (p : PortId) : List Byte := tallyBytes (s.port p).totals ++ two (s.port p).isolations

/-- The COUNTERS item of a group. -/
def State.groupValue (s : State) (g : Nat) : List Byte :=
  match g with
  | 0 => tallyBytes (s.unit .west).totals ++ sideCounters (s.side .west) ++ tallyBytes s.directory.counters ++
      two s.health.assessments ++ two s.health.loopBreaks
  | 1 => tallyBytes (s.unit .east).totals ++ sideCounters (s.side .east)
  | 2 => s.portCounters 0 ++ s.portCounters 1
  | 3 => s.portCounters 2 ++ s.portCounters 3
  | 4 => s.portCounters 4 ++ s.portCounters 5
  | 5 => tallyBytes s.engine.decodes ++ tallyBytes s.engine.drops
  | 6 => tallyBytes s.engine.outcomes ++ proxyBytes s.engine.proxy
  | _ => tallyBytes s.lend.counters ++ tallyBytes s.spool.counters

/-- The SETTINGS item. -/
def State.settingsValue (s : State) : List Byte :=
  settingsBytes s.cfg ++ [s.admin.imageVersion, s.admin.device.code] ++ bytes32 s.admin.clamped.toNat

/-- The PRINTER item. -/
def State.printerValue (s : State) : List Byte :=
  let l := s.pins.printer
  let p := s.spool
  [p.printer.code] ++ flag1 l.ack ++ flag1 l.busy ++ flag1 l.paperOut ++ flag1 l.select ++ flag1 l.fault ++ flag1 p.stall ++
  flag1 p.absentMark ++ flag1 p.inHand.isSome ++ [p.jobCounter, byte1 p.order.length] ++
  (List.range 12).map (fun k => match p.order[k]? with | some n => byte1 n.val | none => 255)

/-- An item of R13's table: a class with an index in its range. -/
inductive Item where
  | side (x : Side)
  | port (p : PortId)
  | entry (i : EntryNo)
  | directory (n : Byte)
  | roster (j : RosterNo)
  | job (k : Slot)
  | pool
  | capture
  | counters (g : Nat)
  | settings
  | printer
deriving DecidableEq, Repr

/-- The side an argument or index names. -/
def sideOf (n : Byte) : Option Side := if n = 0 then some .west else if n = 1 then some .east else none

/-- The port an argument or index names, 1 to 6. -/
def portOf (n : Byte) : Option PortId := if h : 1 ≤ n.toNat ∧ n.toNat ≤ 6 then some ⟨n.toNat - 1, by omega⟩ else none

/-- The item a class code and index name; absent outside their ranges (R13). -/
def itemOf (cls index : Byte) : Option Item :=
  match cls.toNat with
  | 1 => (sideOf index).map .side
  | 2 => (portOf index).map .port
  | 3 => if h : index.toNat < 32 then some (.entry ⟨index.toNat, h⟩) else none
  | 4 => if 1 ≤ index.toNat ∧ index.toNat ≤ 254 then some (.directory index) else none
  | 5 => if h : index.toNat < 16 then some (.roster ⟨index.toNat, h⟩) else none
  | 6 => if h : index.toNat < 12 then some (.job ⟨index.toNat, h⟩) else none
  | 7 => if index = 0 then some .pool else none
  | 8 => if index = 0 then some .capture else none
  | 9 => if index.toNat ≤ 7 then some (.counters index.toNat) else none
  | 10 => if index = 0 then some .settings else none
  | 11 => if index = 0 then some .printer else none
  | _ => none

/-- The words of an item's record are read. -/
def State.checkItem (s : State) (i : Item) : State :=
  match i with
  | .entry k => s.checkEntry k
  | .directory n => s.checkDir n
  | .roster j => s.checkPeer j
  | .job k => s.checkJob k
  | _ => s

/-- The value of an item (R182). -/
def State.itemValue (s : State) (i : Item) : List Byte :=
  match i with
  | .side x => s.sideValue x
  | .port p => s.portValue p
  | .entry k => s.entryValue k
  | .directory n => s.dirValue n
  | .roster j => s.rosterValue j
  | .job k => s.jobValue k
  | .pool => s.poolValue
  | .capture => s.captureValue
  | .counters g => s.groupValue g
  | .settings => s.settingsValue
  | .printer => s.printerValue

/-! ### READ-CLEAR (R181, R105, R171) -/

/-- The counters of R167 of a side set to 0. -/
def SideHealth.cleared (h : SideHealth) : SideHealth :=
  { h with partitionsHealth := 0, partitionsLoop := 0, partitionsAdmin := 0, restores := 0 }

/-- The totals of a side and its counters of R167 set to 0. -/
def State.clearSide (s : State) (x : Side) : State :=
  (s.modUnit x (fun u => { u with totals := Tally.zero 14 })).modSide x SideHealth.cleared

/-- The totals of a port and its isolations set to 0. -/
def State.clearPort (s : State) (p : PortId) : State := s.modPort p (fun q => { q with totals := Tally.zero 13, isolations := 0 })

/-- The proxy accounting set cleared so that the equality of R104 still holds (R105). -/
def Proxy.cleared (p : Proxy) : Proxy :=
  { p with acked := BitVec.ofNat 32 p.queued, delivered := 0, losses := Vector.replicate 6 0 }

/-- The counters of a group set to 0 (R181, R182). -/
def State.clearGroup (s : State) (g : Nat) : State :=
  match g with
  | 0 =>
    let t := s.clearSide .west
    ({ t with directory := { t.directory with counters := Tally.zero 8 } } : State).modHealth
      (fun h => { h with assessments := 0, loopBreaks := 0 })
  | 1 => s.clearSide .east
  | 2 => (s.clearPort 0).clearPort 1
  | 3 => (s.clearPort 2).clearPort 3
  | 4 => (s.clearPort 4).clearPort 5
  | 5 => s.modEngine (fun q => { q with decodes := Tally.zero 12, drops := Tally.zero 13 })
  | 6 => s.modEngine (fun q => { q with outcomes := Tally.zero 7, proxy := q.proxy.cleared })
  | _ => (s.modLend (fun q => { q with counters := Tally.zero 17 })).modSpool (fun q => { q with counters := Tally.zero 15 })

/-- What a READ-CLEAR of an item clears. -/
def State.clearItem (s : State) (i : Item) : State :=
  match i with
  | .counters g => s.clearGroup g
  | .capture => s.modCheck (fun c => { c with capture := none, further := 0, corrected := 0, lastCorrected := none })
  | .pool => s.modPool (fun p => { p with counters := Tally.zero 6 })
  | _ => s

/-! ### Judging (R180, R181) -/

/-- The request at the front of the inbox. -/
def State.request (s : State) : Option Request := s.admin.inbox.head?

/-- The front request is taken up: it leaves the inbox, its chain is released, and the entries of its requester and of the junction
are read. (DEDUCED, unsafe: log entry 50.) -/
def State.takeUp (s : State) (r : Request) : State :=
  (((s.modAdmin (fun a => { a with inbox := a.inbox.drop 1 })).releaseFrom r.chain).checkRequester r.requester).checkEntry 0

/-- The front request is served by `body`, when the device is in RUN and the request is of the row's sort. -/
def State.serve (s : State) (mine : Request → Bool) (body : Request → State → State) : State :=
  match s.request with
  | some r => if s.running && mine r then body r (s.takeUp r) else s
  | none => s

/-- A READ (R181). -/
def State.judgeRead (r : Request) (s : State) : State :=
  match itemOf r.cls r.index with
  | none => s.reply r 1 unknownValue
  | some i =>
    let t := s.checkItem i
    t.reply r 0 (t.itemValue i)

/-- A READ-CLEAR (R181): the clear is made in the event of the read, and the value is the one before it. The clear comes ahead of the
forming and placing of the reply, so what these count stands after it. (DESIGN CHOICE, unsafe: log entry 98.) -/
def State.judgeReadClear (r : Request) (s : State) : State :=
  if s.isAdmin r.requester then
    match itemOf r.cls r.index with
    | none => s.reply r 1 unknownValue
    | some i =>
      let t := s.checkItem i
      (t.clearItem i).reply r 0 (t.itemValue i)
  else s.reply r 2 []

/-- A COMMAND whose effect, on an argument in range, is `act` (R181, R183); the second part of its result is the value. -/
def State.judgeCommand {α : Type} (arg : Byte → Option α) (act : α → State → State × Byte) (r : Request) (s : State) : State :=
  if s.isAdmin r.requester then
    match arg r.argument with
    | none => s.reply r 1 unknownValue
    | some a =>
      let (t, v) := act a s
      t.reply r 0 [v]
  else s.reply r 2 []

/-- A request whose operation is `op`. -/
def opIs (op : Byte) (r : Request) : Bool := r.op == op

/-- A COMMAND request of a code. -/
def commandIs (code : Byte) (r : Request) : Bool := (r.op == 3) && (r.command == code)

end Sys2Proof.Machine
end

