-- ==== Sys2Proof/Machine/Event.lean ====
section
/-! DEFINITION. How a command becomes a step of the state: the clock and the memory upsets first, then the effect, then what ends
every event that may end an attempt or call for a PRINT-STATUS. -/

namespace Sys2Proof.Machine

/-- The answer of a command. -/
abbrev Answered := Host.Outcome State Fault Refusal

/-- A frame cut short has had its inverted check sent: the line falls idle at that moment, and a PARTITIONING side whose attempt it
ended becomes PARTITIONED (R27, R38, R40). (DEDUCED, unsafe: log entry 78.) -/
def State.settleCut (s : State) (x : Side) : State :=
  match (s.unit x).sending with
  | .cutCheck _ ends => if ends ≤ s.now then (s.modUnit x (fun u => u.silent ends)).finish else s
  | _ => s

/-- A command is taken: the clock stands at its moment, never going back, and the upsets that came before it have struck. (DESIGN
CHOICE, unsafe: log entry 1.) -/
def State.arrive (s : State) (e : Moment) : State :=
  let t := e.upsets.foldl State.upset { s with now := max s.now e.time }
  (t.settleCut .west).settleCut .east

/-- A command whose effect is `body`. -/
def State.event (s : State) (e : Moment) (body : State → State) : Answered := .next (body (s.arrive e)).finish

/-- A command whose effect ends no attempt and calls for no PRINT-STATUS. -/
def State.plain (s : State) (e : Moment) (body : State → State) : Answered := .next (body (s.arrive e))

/-- The device is LOADING no longer. -/
def State.started (s : State) : Bool := !s.loading

/-- The single-bit words of a chain's words are met, in chain order: corrected, written back and counted (R170). -/
def State.meetSingles (s : State) (bs : List BlockNo) (p : WordLoc → Bool) : State :=
  ((s.badWords (chainPlace bs) p).filter (fun w => !w.isUncorrectable)).foldl State.noteCorrected s

end Sys2Proof.Machine
end

