-- ==== Sys2Proof/Machine/Start.lean ====
section
/-! DEFINITION. Reset, the settings load and RESTART (R17, R41, R66, R108, R132, R152, R177, R178, R184), and the RUN lamp (R185). -/

namespace Sys2Proof.Machine

/-! ### Full reset -/

/-- A unit after full reset: a burst still under way will be ignored to its end (R17), and carrier on the line stays on it. -/
def TrunkUnit.afterReset (u : TrunkUnit) (now : Time) : TrunkUnit :=
  { TrunkUnit.reset with
    rx := u.rx.map (fun r => ⟨r.began, .ignored, [], none, false, false, none, false, false, false⟩)
    otherCarrier := u.otherCarrier
    idleSince := if u.rx.isSome || u.otherCarrier then none else some now }

/-- Every block in its full-reset state; the clock, the waiting commands and the input pins stay. (DESIGN CHOICE, unsafe: log entry 49.) -/
def State.resetAll (s : State) : State :=
  { State.reset with
    now := s.now
    pending := s.pending
    pins := s.pins
    trunk := ⟨s.trunk.west.afterReset s.now, s.trunk.east.afterReset s.now⟩ }

/-- FULL_RESET. -/
def execFullReset (e : Moment) (s : State) : Answered :=
  s.plain e (fun s => { s.resetAll with pins := { s.pins with resetAsserted := true } })

/-! ### The load -/

/-- RESET is released: the load begins. -/
def State.beginLoad (s : State) : State :=
  if s.loading && s.pins.resetAsserted then
    { s with pins := { s.pins with resetAsserted := false }, admin := { s.admin with reading := true } }
  else s

/-- RESET_RELEASE. -/
def execResetRelease (e : Moment) (s : State) : Answered := s.plain e State.beginLoad

/-- The Settings and Inspection Unit when LOADING ends in RUN with the fields `raw` (R178, R179). -/
def AdminUnit.toRun (a : AdminUnit) (raw : Settings) (version : Byte) : AdminUnit :=
  { a with
    device := .run
    reading := false
    settings := clampSettings raw
    imageVersion := version
    clamped := clampedFlags raw (clampSettings raw)
    runLamp := true
    flashAt := none }

/-- The Settings and Inspection Unit when LOADING ends in RELAY-ONLY (R178, R185). The RUN lamp flashes from that moment on, its lit
half first (DESIGN CHOICE, unsafe: log entry 90). The image version, for which R15 has no default, stands at 0. (DESIGN CHOICE, safe:
log entry 102.) -/
def AdminUnit.toRelayOnly (a : AdminUnit) (now : Time) : AdminUnit :=
  { a with
    device := .relayOnly
    reading := false
    settings := Settings.default
    imageVersion := 0
    clamped := 0
    runLamp := true
    flashAt := some (now + Config.lampFlash) }

/-- What both outcomes of a load start: the side windows, with Lf from the line (R36, R152), and the scrubber over sound stores
(R169, R176), its first read one period of 64 µs later. (DESIGN CHOICE, unsafe: log entry 88.) -/
def State.startSides (s : State) : State :=
  let one := fun (t : State) (x : Side) =>
    (t.modWindow x (fun w => { w with lf := Sides.get s.pins.lineFault x })).modSide x
      (fun h => { h with windowEnd := some (s.now + Config.window) })
  (one (one s .west) .east).modCheck (fun c => { c with bad := [], scrubAt := some (s.now + Config.scrubPeriod) })

/-- A port's first state in RUN (R41), with its window timer (R152). -/
def State.startPort (s : State) (p : PortId) : State :=
  let t := s.modPort p (fun q =>
    { q with state := if s.cfg.portEnabled p then .down else .disabled, windowEnd := some (s.now + Config.window) })
  if s.cfg.portEnabled p && s.pins.link[p] then t.portUp p else t

/-- The Alias Unit enters RUN (R108). -/
def State.startLending (s : State) : State :=
  let junction := unboundEntry .junction (s.cfg.baseId.getD 0) none
  let printer := unboundEntry .printer (s.cfg.printerId.getD 0) none
  s.modLend (fun l =>
    { l with
      table := (l.table.set 0 (some junction)).set 1 (if s.cfg.printing then some printer else none)
      claims := if s.cfg.printing then [0, 1] else [0]
      announceAt := some (s.now + s.cfg.announcePeriod * Config.sec) })

/-- LOADING ends in RUN. -/
def State.enterRun (s : State) (image : List Byte) : State :=
  let t := s.modAdmin (fun a => a.toRun (readSettings image) (image.getD 2 0))
  let t := ((List.finRange 6).foldl State.startPort t.startSides).startLending
  if t.cfg.printing then t.callInit else t

/-- LOADING ends in RELAY-ONLY. -/
def State.enterRelayOnly (s : State) : State :=
  ((s.modAdmin (fun a => a.toRelayOnly s.now)).startSides).modLend (fun l =>
    { l with table := Vector.replicate 32 none, claims := [] })

/-- The EEPROM read ends: the image is judged. -/
def State.endLoad (s : State) (image : List Byte) : State :=
  if s.loading && s.admin.reading then (if imageValid image then s.enterRun image else s.enterRelayOnly) else s

/-- SETTINGS_LOAD_END. -/
def execSettingsLoadEnd (e : Moment) (image : List Byte) (s : State) : Answered := s.plain e (fun s => s.endLoad image)

/-! ### The RUN lamp -/

/-- The RUN lamp toggles at a half period's end. -/
def State.flash (s : State) : State :=
  if decide (s.admin.device = .relayOnly) && expired s.now s.admin.flashAt then
    s.modAdmin (fun a => { a with runLamp := !a.runLamp, flashAt := some (s.now + Config.lampFlash) })
  else s

/-- RUN_LAMP_FLASH. -/
def execRunLampFlash (e : Moment) (s : State) : Answered := s.plain e State.flash

/-! ### RESTART (R184) -/

/-- A RELEASE is formed for an entry in BOUND or HELD. -/
def State.releaseOf (s : State) (i : EntryNo) : State :=
  match s.entry i with
  | some e => match e.phase.holds with | some n => s.sendRelease n e.ident | none => s
  | none => s

/-- Step 2 of a RESTART: the releases, in table order. -/
def State.restartReleases (s : State) : State :=
  match s.admin.restartPending, s.admin.releasesSent with
  | some t, none =>
    if s.running && decide (t + Config.restartStep ≤ s.now) then
      ((List.finRange 32).foldl State.releaseOf s.checkEntries).modAdmin (fun a => { a with releasesSent := some s.now })
    else s
  | _, _ => s

/-- RESTART_RELEASES. -/
def execRestartReleases (e : Moment) (s : State) : Answered := s.event e State.restartReleases

/-- The RESTART values: those of full reset, but for the retired list and the capture data; the load begins (R184, step 3). -/
def State.restarted (s : State) : State :=
  { s.resetAll with
    pool := Pool.rebuilt s.pool.retired (Tally.zero 6) false
    check := { CheckUnit.reset with
               capture := s.check.capture, further := s.check.further, corrected := s.check.corrected,
               lastCorrected := s.check.lastCorrected }
    admin := { AdminUnit.reset with reading := true } }

/-- Step 3 of a RESTART. -/
def State.restartExecute (s : State) : State :=
  match s.admin.releasesSent with
  | some t => if s.running && decide (t + Config.restartStep ≤ s.now) then s.restarted else s
  | none => s

/-- RESTART_EXECUTE. -/
def execRestartExecute (e : Moment) (s : State) : Answered := s.plain e State.restartExecute

end Sys2Proof.Machine
end

