-- ==== Sys2Proof/Machine/Admin.lean ====
section
/-! DEFINITION. The rows that judge an INSPECT-REQ and carry out a command (R158, R165, R141, R180 to R184). -/

namespace Sys2Proof.Machine

/-- READ. -/
def execRead (e : Moment) (s : State) : Answered := s.event e (fun s => s.serve (opIs 1) State.judgeRead)

/-- READ_CLEAR. -/
def execReadClear (e : Moment) (s : State) : Answered := s.event e (fun s => s.serve (opIs 2) State.judgeReadClear)

/-- RESTORE-SIDE on a side, with the side state code after it. -/
def restoreAct (x : Side) (s : State) : State × Byte :=
  let t := s.restoreCommand x
  (t, (t.side x).state.code)

/-- RESTORE_SIDE. -/
def execRestoreSide (e : Moment) (s : State) : Answered :=
  s.event e (fun s => s.serve (commandIs 1) (State.judgeCommand sideOf restoreAct))

/-- PARTITION-SIDE on a side, with the side state code after it. -/
def partitionAct (x : Side) (s : State) : State × Byte :=
  let t := s.partitionSide x
  (t, (t.side x).state.code)

/-- PARTITION_SIDE. -/
def execPartitionSide (e : Moment) (s : State) : Answered :=
  s.event e (fun s => s.serve (commandIs 2) (State.judgeCommand sideOf partitionAct))

/-- RELEASE-PORT on a port, with the port state code after it. -/
def releaseAct (p : PortId) (s : State) : State × Byte :=
  let t := s.releaseCommand p
  (t, (t.port p).state.code)

/-- RELEASE_PORT. -/
def execReleasePort (e : Moment) (s : State) : Answered :=
  s.event e (fun s => s.serve (commandIs 3) (State.judgeCommand portOf releaseAct))

/-- The job number an argument names, 1 to 255. -/
def jobNumberOf (n : Byte) : Option Byte := if n = 0 then none else some n

/-- The unfinished job in a slot is cancelled with reason ADMIN, and its originator is told (R141, R149), ahead of the notices of the
spool change. (DESIGN CHOICE, unsafe: log entry 100.) -/
def State.cancelAdmin (s : State) (k : Slot) : State :=
  (((s.finishJob k .cancelled .admin none).raiseSpool .jobsCancelled).notifyJob k).spoolChange none

/-- CANCEL-JOB on a job number, with 0 cancelled, 1 no such job, 2 already finished (R183). -/
def cancelAct (n : Byte) (s : State) : State × Byte :=
  let s := s.checkJobs
  match s.slotOf n with
  | none => (s, 1)
  | some k =>
    match s.job k with
    | none => (s, 1)
    | some j => if j.isFinished then (s, 2) else (s.cancelAdmin k, 0)

/-- CANCEL_JOB. -/
def execCancelJob (e : Moment) (s : State) : Answered :=
  s.event e (fun s => s.serve (commandIs 4) (State.judgeCommand jobNumberOf cancelAct))

/-- RESTART: restart pending is set, with 0, or was set already, with 1 (R183). -/
def restartAct (_ : Byte) (s : State) : State × Byte :=
  match s.admin.restartPending with
  | none => (s.modAdmin (fun a => { a with restartPending := some s.now }), 0)
  | some _ => (s, 1)

/-- RESTART. -/
def execRestart (e : Moment) (s : State) : Answered :=
  s.event e (fun s => s.serve (commandIs 5) (State.judgeCommand some restartAct))

end Sys2Proof.Machine
end

