-- ==== Sys2Proof/Machine/Lending.lean ====
section
/-! DEFINITION. The timed rows of the Station Directory (R74 to R76), the Forwarding Engine (R95) and the Alias Unit (R112, R114, R118,
R124, R126, R128). -/

namespace Sys2Proof.Machine

/-! ### Directory and recent broadcasts -/

/-- The record's last heard lies a full directory age in the past. -/
def DirRecord.aged (r : DirRecord) (cfg : Settings) (now : Time) : Bool :=
  decide (r.lastHeard + cfg.directoryAge * Config.sec ≤ now)

/-- A LEGACY record past its age, and not quarantined, is removed (R75). -/
def State.ageRecord (s : State) (n : Byte) : State :=
  let t := s.checkDir n
  match t.dir n with
  | some r =>
    if r.isLegacy && !r.quarantined && r.aged t.cfg t.now then (t.setDir n none).raiseDir .aged else t
  | none => t

/-- DIRECTORY_AGE_EXPIRY. -/
def execDirectoryAgeExpiry (e : Moment) (n : Byte) (s : State) : Answered :=
  s.event e (fun s => if s.started then s.ageRecord n else s)

/-- A record's quarantine ends; a LEGACY one already past its age is removed at that moment (R74, R76). -/
def State.endQuarantine (s : State) (n : Byte) : State :=
  let t := s.checkDir n
  match t.dir n with
  | some r =>
    if expired t.now r.quarantine then
      if r.isLegacy && r.aged t.cfg t.now then (t.setDir n none).raiseDir .aged
      else t.setDir n (some { r with quarantine := none, windowStart := none, moves := 0 })
    else t
  | none => t

/-- QUARANTINE_EXPIRY. -/
def execQuarantineExpiry (e : Moment) (n : Byte) (s : State) : Answered :=
  s.event e (fun s => if s.started then s.endQuarantine n else s)

/-- The oldest recent-broadcasts entry has stood for 2 s (R95). -/
def State.dropBroadcast (s : State) : State :=
  match s.engine.broadcasts with
  | [] => s
  | b :: rest => if b.entered + Config.broadcastMemory ≤ s.now then s.modEngine (fun q => { q with broadcasts := rest }) else s

/-- BROADCAST_ENTRY_EXPIRY. -/
def execBroadcastEntryExpiry (e : Moment) (s : State) : Answered := s.plain e State.dropBroadcast

/-! ### Claims -/

/-- How many entries are PROBING. -/
def State.probers (s : State) : Nat :=
  ((List.finRange 32).filter (fun i => match s.entry i with | some e => e.phase.isProbing | none => false)).length

/-- The head of the claim queue begins a claim (R112). -/
def State.beginClaim (s : State) : State :=
  if s.running then
    let t := s.checkEntries
    match t.lend.claims with
    | [] => t
    | i :: rest =>
      if t.probers < Config.probersLimit ∧ t.joinedSides.isEmpty = false then
        (t.modLend (fun l => { l with claims := rest })).seekNumber i
      else t
  else s

/-- CLAIM_BEGIN. -/
def execClaimBegin (e : Moment) (s : State) : Answered := s.event e State.beginClaim

/-- The number and start of a probe that runs. -/
def AliasPhase.probe : AliasPhase → Option (Byte × Time)
  | .probing n (.running start) => some (n, start)
  | _ => none

/-- The entry's probe, when it runs. -/
def State.probeOf (s : State) (i : EntryNo) : Option (AliasEntry × Byte × Time) :=
  (s.entry i).bind (fun e => e.phase.probe.map (fun p => (e, p.1, p.2)))

/-- A further CLAIM of a probe is due (R114). -/
def State.dueClaim (s : State) (i : EntryNo) : State :=
  if s.running then
    let t := s.checkEntry i
    match t.probeOf i with
    | some (e, _, start) => if e.dues < 3 ∧ start + Config.claimStep * e.dues ≤ t.now then t.claimNow i else t
    | none => t
  else s

/-- CLAIM_DUE. -/
def execClaimDue (e : Moment) (i : EntryNo) (s : State) : Answered := s.event e (fun s => s.dueClaim i)

/-- The entry is a node's whose port is not UP. -/
def State.away (s : State) (e : AliasEntry) : Bool :=
  match e.location with
  | some p => decide ((s.port p).state ≠ .up)
  | none => false

/-- An entry binds its number (R114): BOUND, or HELD from that moment when its node's port is not UP (R122). (DEDUCED, unsafe: log
entry 83.) The number's record is written without being read. (DESIGN CHOICE, unsafe: log entry 89.) -/
def State.bindEntry (s : State) (i : EntryNo) (e : AliasEntry) (n : Byte) : State :=
  let away := s.away e
  let bound : AliasEntry := { e with phase := if away then .held n (s.now + s.cfg.aliasHold * Config.sec) else .bound n }
  let t := ((s.setEntry i (some bound)).dirBind n i bound).raiseLend .binds
  (if away then t.raiseLend .holds else t).announce bothSides

/-- A probe reaches 750 ms: with three CLAIMs sent the entry binds, and otherwise the probe begins again (R114). -/
def State.endProbe (s : State) (i : EntryNo) : State :=
  if s.running then
    let t := s.checkEntry i
    match t.probeOf i with
    | some (e, n, start) =>
      if start + Config.probeLength ≤ t.now then (if e.probes = 3 then t.bindEntry i e n else t.startProbe i e n) else t
    | none => t
  else s

/-- ALIAS_BIND. -/
def execAliasBind (e : Moment) (i : EntryNo) (s : State) : Answered := s.event e (fun s => s.endProbe i)

/-- A FAILED entry reaches its failed-retry time (R118). -/
def State.retryEntry (s : State) (i : EntryNo) : State :=
  let t := s.checkEntry i
  match t.entry i with
  | some e =>
    match e.phase with
    | .failed retry => if retry ≤ t.now then (t.setEntry i (some { e with phase := .unbound, tried := 0 })).joinClaims i else t
    | _ => t
  | none => t

/-- FAILED_RETRY. -/
def execFailedRetry (e : Moment) (i : EntryNo) (s : State) : Answered :=
  s.event e (fun s => if s.running then s.retryEntry i else s)

/-- A HELD entry gives up its number at its hold expiry, and is freed (R124). -/
def State.endHold (s : State) (i : EntryNo) : State :=
  let t := s.checkEntry i
  match t.entry i with
  | some e =>
    match e.phase with
    | .held n expiry =>
      if expiry ≤ t.now then
        ((((t.checkDir n).setEntry i (some { e with phase := .unbound })).relinquish n e.ident .remove).freeEntry i).raiseLend
          .holdExpiries
      else t
    | _ => t
  | none => t

/-- HOLD_EXPIRY. -/
def execHoldExpiry (e : Moment) (i : EntryNo) (s : State) : Answered :=
  s.event e (fun s => if s.running then s.endHold i else s)

/-! ### Announcing and the roster -/

/-- The announce timer expires and runs again; an ANNOUNCE is formed for the JOINED sides (R126). -/
def State.periodicAnnounce (s : State) : State :=
  if s.running && expired s.now s.lend.announceAt then
    (s.modLend (fun l => { l with announceAt := some (s.now + s.cfg.announcePeriod * Config.sec) })).announce bothSides
  else s

/-- ANNOUNCE_TIMER_EXPIRY. -/
def execAnnounceTimerExpiry (e : Moment) (s : State) : Answered := s.event e State.periodicAnnounce

/-- A last-heard time lies three announce periods or more in the past, or there is none. -/
def heardLongAgo (cfg : Settings) (now : Time) (t : Option Time) : Bool :=
  match t with
  | some t => decide (t + 3 * cfg.announcePeriod * Config.sec ≤ now)
  | none => true

/-- A peer not heard within three announce periods leaves the roster (R128). -/
def State.agePeer (s : State) (j : RosterNo) : State :=
  let t := s.checkPeer j
  match t.peer j with
  | some e =>
    if heardLongAgo t.cfg t.now e.heard.west && heardLongAgo t.cfg t.now e.heard.east then (t.setPeer j none).peerLeft e.ident
    else t
  | none => t

/-- ROSTER_EXPIRY. (DEDUCED, unsafe: log entry 42.) -/
def execRosterExpiry (e : Moment) (j : RosterNo) (s : State) : Answered :=
  s.event e (fun s => if s.running then s.agePeer j else s)

end Sys2Proof.Machine
end

