-- ==== Sys2Proof/Machine/Memory.lean ====
section
/-! DEFINITION. The rows of the Buffer Pool and the Check Unit: the retire test's end (R63, R172), pool recovery's end (R64) and the
scrubber (R176). -/

namespace Sys2Proof.Machine

/-- The retire test in hand ends with a verdict: it persists unless the read-back is sound (R172). -/
def State.testOver (s : State) (v : ReadBack) : State :=
  match s.check.test with
  | some (t, began) =>
    if began + Config.retireTest ≤ s.now then (s.applyVerdict t.block (decide (v ≠ .sound))).nextTest else s
  | none => s

/-- RETIRE_TEST_END. (DESIGN CHOICE, safe: log entry 26.) -/
def execRetireTestEnd (e : Moment) (verdict : ReadBack) (s : State) : Answered := s.event e (fun s => s.testOver verdict)

/-- The last block record is rewritten (R64, step 4); the windows of jobs still RECEIVING are computed afresh, the job records having
been read (R148). -/
def State.recoveryOver (s : State) : State :=
  if s.pool.recovering then
    (((s.modPool (fun p => { p with recovering := false })).raisePool .recoveries).checkJobs).computeWindows
  else s

/-- POOL_RECOVERY_END. (DESIGN CHOICE, unsafe: log entry 28.) -/
def execPoolRecoveryEnd (e : Moment) (s : State) : Answered := s.event e State.recoveryOver

/-- The word at a scrub position, in the order of R169 and R176. -/
def scrubLoc (n : Nat) : WordLoc :=
  if n < 8192 then ⟨.blockMemory, n / 32, n % 32⟩
  else if n < 8448 then ⟨.blockRecords, n - 8192, 0⟩
  else if n < 9464 then ⟨.directory, (n - 8448) / 4 + 1, (n - 8448) % 4⟩
  else if n < 9592 then ⟨.aliasTable, (n - 9464) / 4, (n - 9464) % 4⟩
  else if n < 9656 then ⟨.roster, (n - 9592) / 4, (n - 9592) % 4⟩
  else ⟨.jobRecords, (n - 9656) / 8, (n - 9656) % 8⟩

/-- The position after a scrub position. -/
def nextScrub (n : Nat) : Nat := if n + 1 < Config.scrubWords then n + 1 else 0

/-- The word belongs to block memory of a RETIRED block, and is passed over. -/
def State.passedOver (s : State) (l : WordLoc) : Bool :=
  decide (l.store = .blockMemory) && decide (s.pool.records[Fin.ofNat 256 l.index].cls = .retired)

/-- The scrubber finds a word of block memory uncorrectable: a block that the pool reports FREE is put to the retire test in its
place (R176), unless a test of it is in hand or waiting. (DESIGN CHOICE, unsafe: log entry 76.) -/
def State.scrubBlock (s : State) (l : WordLoc) : State :=
  let b : BlockNo := Fin.ofNat 256 l.index
  let t := s.checkRecord b
  if t.pool.recovering = false ∧ t.pool.records[b].cls = .free ∧ t.underTest b = false then t.needTest ⟨b, l.offset⟩ else t

/-- The scrubber reads a word. -/
def State.scrubWord (s : State) (l : WordLoc) : State :=
  if s.passedOver l then s
  else
    match s.check.bad.find? (fun w => decide (w.loc = l)) with
    | none => s
    | some w =>
      let t := s.meetWord .scrubber w
      if w.isUncorrectable && decide (l.store = .blockMemory) then t.scrubBlock l else t

/-- A scrubber's turn: the position advances, and the word that stood at it is read. -/
def State.scrub (s : State) : State :=
  if s.started && expired s.now s.check.scrubAt then
    (s.modCheck (fun c =>
      { c with scrubPos := nextScrub c.scrubPos, scrubAt := some (s.now + Config.scrubPeriod) })).scrubWord (scrubLoc s.check.scrubPos)
  else s

/-- SCRUB_READ. -/
def execScrubRead (e : Moment) (s : State) : Answered := s.event e State.scrub

end Sys2Proof.Machine
end

