-- ==== Sys2Proof/Machine/Monitor.lean ====
section
/-! DEFINITION. The timed rows of the Health Monitor (chapter 9). -/

namespace Sys2Proof.Machine

/-! ### Windows of a side (R153, R154) -/

/-- A unit hands over its window counts and starts the next window (R36). -/
def TrunkUnit.newWindow (u : TrunkUnit) (fault : Bool) : TrunkUnit := { u with window := { WindowCounts.zero with lf := fault } }

/-- The counts of a window are taken: the score, the run, and the counts kept for inspection. -/
def SideHealth.takeWindow (h : SideHealth) (w : WindowCounts) (now : Time) : SideHealth :=
  { h with
    score := newScore h.score w
    cleanRun := newCleanRun h.cleanRun w
    lastWindow := w
    windowEnd := some (now + Config.window) }

/-- The test that follows a window's end (R154). -/
def State.testSide (s : State) (x : Side) : State :=
  let h := s.side x
  match h.state with
  | .joined => if s.cfg.partitionThreshold ≤ h.score then s.decidePartition x .health else s
  | .partitioning => s
  | .partitioned =>
    if h.reason = some .health ∧ h.score < s.cfg.restoreThreshold ∧ 3 ≤ h.cleanRun then s.restoreSide x else s

/-- A side's window ends. -/
def State.endWindow (s : State) (x : Side) : State :=
  if s.started && expired s.now (s.side x).windowEnd then
    let w := (s.unit x).window
    ((s.modUnit x (fun u => u.newWindow (Sides.get s.pins.lineFault x))).modSide x (fun h => h.takeWindow w s.now)).testSide x
  else s

/-- SIDE_WINDOW_END. (DESIGN CHOICE, unsafe: log entry 41.) -/
def execSideWindowEnd (e : Moment) (x : Side) (s : State) : Answered := s.event e (fun s => s.endWindow x)

/-! ### Loops (R157, R160, R162) -/

/-- The loop hold of a side expires: it is restored if it is PARTITIONED for LOOP (R157). -/
def State.endLoopHold (s : State) (x : Side) : State :=
  if s.started && expired s.now (s.side x).loopHold then
    if (s.side x).state = .partitioned ∧ (s.side x).reason = some .loop then s.restoreSide x
    else s.modSide x (fun h => { h with loopHold := none })
  else s

/-- LOOP_HOLD_EXPIRY. -/
def execLoopHoldExpiry (e : Moment) (x : Side) (s : State) : Answered := s.event e (fun s => s.endLoopHold x)

/-- The LOOPED mark of a peer is cleared, if it has a roster entry. -/
def State.clearLooped (s : State) (peer : Ident) : State :=
  match s.peerIndex peer with
  | some j => match s.peer j with | some e => s.setPeer j (some { e with looped := false }) | none => s
  | none => s

/-- A peer's loop watch expires (R160). -/
def State.endPeerWatch (s : State) (peer : Ident) : State :=
  if s.health.watches.any (fun w => w.peer == peer && decide (w.expiry ≤ s.now)) then
    ((s.modHealth (fun h => { h with watches := h.watches.filter (fun w => w.peer != peer) })).checkPeers).clearLooped peer
  else s

/-- LOOP_WATCH_EXPIRY. -/
def execLoopWatchExpiry (e : Moment) (peer : Ident) (s : State) : Answered :=
  s.event e (fun s => if s.running then s.endPeerWatch peer else s)

/-- The junction identifiers of the peers marked LOOPED. -/
def State.loopedPeers (s : State) : List Ident :=
  (List.finRange 16).filterMap (fun j => match s.peer j with | some e => if e.looped then some e.ident else none | none => none)

/-- The junction is to break the loop (R162): there is a loop, both sides are JOINED, and no LOOPED peer has an identifier as low. -/
def State.breaksLoop (s : State) : Bool :=
  (s.health.ownLooped || !s.loopedPeers.isEmpty) && s.joined .west && s.joined .east &&
  s.loopedPeers.all (fun p => decide (s.cfg.baseId.getD 0 < p))

/-- An assessment interval ends (R162). -/
def State.endAssessment (s : State) : State :=
  if s.started && expired s.now s.health.assessment then
    let t := s.checkPeers
    let breaks := t.breaksLoop
    let t := t.modHealth (fun h =>
      { h with assessment := none, ownLooped := false, loopBreaks := if breaks then bump h.loopBreaks else h.loopBreaks })
    if breaks then t.decidePartition .east .loop else t
  else s

/-- LOOP_ASSESSMENT_END. -/
def execLoopAssessmentEnd (e : Moment) (s : State) : Answered := s.event e State.endAssessment

/-! ### Star ports (R163 to R165) -/

/-- A port's window ends: the counts are taken, and an UP port over a limit is isolated. (DEDUCED, unsafe: log entry 48.) -/
def State.endStarWindow (s : State) (p : PortId) : State :=
  if s.running && expired s.now (s.port p).windowEnd then
    let w := (s.port p).window
    let t := s.modPort p (fun q => { q with window := ⟨0, 0, 0⟩, windowEnd := some (s.now + Config.window) })
    if (s.port p).state = .up ∧ isolates s.cfg w = true then t.isolatePort p else t
  else s

/-- STAR_WINDOW_END. -/
def execStarWindowEnd (e : Moment) (p : PortId) (s : State) : Answered := s.event e (fun s => s.endStarWindow p)

/-- The star hold of an ISOLATED port expires (R165). -/
def State.endStarHold (s : State) (p : PortId) : State :=
  if decide ((s.port p).state = .isolated) && expired s.now (s.port p).holdEnd then s.endIsolation p else s

/-- STAR_HOLD_EXPIRY. -/
def execStarHoldExpiry (e : Moment) (p : PortId) (s : State) : Answered := s.event e (fun s => s.endStarHold p)

end Sys2Proof.Machine
end

