-- ==== Sys2Proof/Machine/Printing.lean ====
section
/-! DEFINITION. The rows of the Print Spool: the printer's lines and timers (R131 to R133), job timers (R134, R144) and printing
(R145, R146). -/

namespace Sys2Proof.Machine

/-- The record of the job at the head of the print order list is read. -/
def State.checkHead (s : State) : State := match s.spool.order with | k :: _ => s.checkJob k | [] => s

/-- The job at the printer is held or resumed by the printer's state as it now stands (R131, R147). -/
def State.follow (s : State) : State := s.checkHead.rederive

/-! ### Job timers -/

/-- A RECEIVING job idle for the job idle time is CANCELLED (R144), its own notice ahead of those of the spool change. (DESIGN CHOICE,
unsafe: log entry 100.) -/
def State.idleJob (s : State) (k : Slot) : State :=
  let t := s.checkJob k
  match t.job k with
  | some j =>
    if j.receives && decide (j.lastActivity + t.cfg.jobIdle * Config.sec ≤ t.now) then
      (((t.finishJob k .cancelled .idle none).raiseSpool .idleCancellations).notifyJob k).spoolChange none
    else t
  | none => t

/-- JOB_IDLE_EXPIRY. -/
def execJobIdleExpiry (e : Moment) (k : Slot) (s : State) : Answered :=
  s.event e (fun s => if s.running then s.idleJob k else s)

/-- A finished record's slot becomes empty 30 s after its finished time (R134). -/
def State.emptySlot (s : State) (k : Slot) : State :=
  let t := s.checkJob k
  match t.job k with
  | some j =>
    match j.finished with
    | some f => if j.isFinished && decide (f + Config.finishedStay ≤ t.now) then t.clearSlot k else t
    | none => t
  | none => t

/-- SLOT_EXPIRY. -/
def execSlotExpiry (e : Moment) (k : Slot) (s : State) : Answered :=
  s.event e (fun s => if s.running then s.emptySlot k else s)

/-! ### The printer's lines, INIT and the absent watch -/

/-- The levels of an absent printer: SELECT low and BUSY high (R131). -/
def looksAbsent (l : PrinterLines) : Bool := !l.select && l.busy

/-- The printer's lines take levels. -/
def State.setLines (s : State) (l : PrinterLines) : State :=
  let t : State := { s with pins := { s.pins with printer := l } }
  t.modSpool (fun p =>
    { p with absentMark := p.absentMark && looksAbsent l
             absentWatch := p.absentWatch.map (fun w => (w.1, w.2 && looksAbsent l)) })

/-- PRINTER_LINE_CHANGE. -/
def execPrinterLineChange (e : Moment) (lines : PrinterLines) (s : State) : Answered :=
  s.event e (fun s => if s.running then (s.setLines lines).follow else { s with pins := { s.pins with printer := lines } })

/-- The absent watch ends: the mark is set when the two levels held throughout (R131). -/
def State.endWatch (s : State) : State :=
  match s.spool.absentWatch with
  | some (t, stayed) =>
    if t ≤ s.now then (s.modSpool (fun p => { p with absentWatch := none, absentMark := stayed })).follow else s
  | none => s

/-- ABSENT_WATCH_END. -/
def execAbsentWatchEnd (e : Moment) (s : State) : Answered := s.event e (fun s => if s.running then s.endWatch else s)

/-- What the end of an INIT pulse does to the port: no byte in hand, no stall, and a new absent watch (R131, and R132, whose row
INIT_PULSE_END of the table has all three happen as the pulse ends). -/
def PrintSpool.initDone (p : PrintSpool) (now : Time) (lines : PrinterLines) : PrintSpool :=
  { p with
    initPulse := none
    inHand := none
    byteTimer := none
    stall := false
    absentMark := false
    absentWatch := some (now + Config.absentWatch, looksAbsent lines)
    linesTaken := true }

/-- The INIT pulse ends; one called for meanwhile begins. -/
def State.endInit (s : State) : State :=
  match s.spool.initPulse with
  | some began =>
    if began + Config.initPulse ≤ s.now then
      ((s.modSpool (fun p => p.initDone s.now s.pins.printer)).follow).beginPendingInit
    else s
  | none => s

/-- INIT_PULSE_END. -/
def execInitPulseEnd (e : Moment) (s : State) : Answered := s.event e (fun s => if s.running then s.endInit else s)

/-! ### Bytes (R133, R146) -/

/-- A byte may be presented: none is in hand, the printer is READY, and no INIT pulse is pending or under way. -/
def State.mayPresent (s : State) : Bool :=
  s.spool.inHand.isNone && decide (s.spool.printer = .ready) && !s.initBusy

/-- A data byte of the PRINTING job is read from its chain and presented; an uncorrectable word damages the job (R148). Where the
word of the stored length and the word of the byte, in two blocks, are both uncorrectable, the length's block alone is put under
test: DESIGN CHOICE, log entry 91. -/
def State.presentData (s : State) (k : Slot) (c : JobChain) (j : Job) : State :=
  match State.walk 256 c.first s with
  | (t, none) => t
  | (t, some _) =>
    match t.locate (t.jobFrames j) j.printed with
    | none => t
    | some (bs, f, i) =>
      let words := dataWords bs f i
      let u := t.meetChain .print bs words
      if t.broken words then
        u.damageJob k ((t.firstBroken bs (headerBytes f - 2) (headerBytes f)).or (t.firstBroken bs i (i + 1)))
      else u.present k ((u.loadChain bs i 1).getD 0 0) false

/-- The PRINTING job's next byte, or its separator, is presented. -/
def State.presentNext (s : State) : State :=
  let s := s.checkHead
  match s.atPrinter with
  | some (k, j) =>
    if s.mayPresent && decide (j.state = .printing) then
      if s.spool.separatorDue then s.present k 0x0C true
      else
        match j.chain with
        | some c => s.presentData k c j
        | none => s
    else s
  | none => s

/-- BYTE_PRESENT. -/
def execBytePresent (e : Moment) (s : State) : Answered := s.event e (fun s => if s.running then s.presentNext else s)

/-- A data byte of the job in a slot has been taken: the position advances, and at the last byte a separator is due or the copy is
complete (R146). -/
def State.byteTaken (s : State) (k : Slot) (j : Job) (byte : Byte) : State :=
  let t := s.setJob k (some { j with printed := j.printed + 1 })
  if j.printed + 1 < s.jobLength j then t
  else if j.separator && byte != 0x0C then t.modSpool (fun p => { p with separatorDue := true })
  else State.copyEnd k (j.copiesLeft + 1) t

/-- A byte of the job in a slot has been taken. A job still at the printer goes on; of one that has ended, a data byte is counted in
its record alone. A separator raises no bytes printed. (DEDUCED, unsafe: log entry 65.) -/
def State.countByte (s : State) (k : Slot) (h : InHand) : State :=
  match s.job k with
  | some j =>
    if j.atPrinter then (if h.separator then State.copyEnd k (j.copiesLeft + 1) s else s.byteTaken k j h.byte)
    else if h.separator then s
    else s.setJob k (some { j with printed := j.printed + 1 })
  | none => s

/-- ACKNOWLEDGE takes the byte in hand (R133). -/
def State.takeByte (s : State) (h : InHand) : State :=
  let t := s.modSpool (fun p => { p with inHand := none, byteTimer := none, stall := false })
  match h.slot with
  | some k => (t.checkJob k).countByte k h
  | none => t

/-- ACKNOWLEDGE arrives: the byte is taken first, and the printer's state followed then, so that a HELD job whose last byte it is
becomes DONE with no PRINTING between. (DESIGN CHOICE, unsafe: log entry 84.) -/
def State.acknowledged (s : State) : State :=
  match s.spool.inHand with
  | some h => ((s.takeByte h).follow).beginPendingInit
  | none => s

/-- ACKNOWLEDGE. -/
def execAcknowledge (e : Moment) (s : State) : Answered := s.event e (fun s => if s.running then s.acknowledged else s)

/-- The byte timer runs out: the stall condition is set (R133), which settles the byte in hand for a pending INIT (R141). -/
def State.stallByte (s : State) : State :=
  if expired s.now s.spool.byteTimer && s.spool.inHand.isSome then
    (((s.modSpool (fun p => { p with stall := true, byteTimer := none })).raiseSpool .stalls).follow).beginPendingInit
  else s

/-- BYTE_TIMER_EXPIRY. -/
def execByteTimerExpiry (e : Moment) (s : State) : Answered := s.event e (fun s => if s.running then s.stallByte else s)

/-! ### Beginning a job (R145) -/

/-- The job in a slot begins printing; one of no data has its separator presented, or its copies counted off at once (R146). -/
def State.startJob (s : State) (k : Slot) (j : Job) : State :=
  let t := ((s.setJob k (some { j with state := .printing, printed := 0 })).modSpool
    (fun p => { p with separatorDue := decide (s.jobLength j = 0) && j.separator })).notifyJob k
  if s.jobLength j = 0 ∧ j.separator = false then State.copyEnd k (j.copiesLeft + 1) t else t

/-- The head job begins printing when it is READY, the printer is, and no INIT pulse is pending or under way. -/
def State.beginJob (s : State) : State :=
  let s := s.checkHead
  match s.spool.order with
  | [] => s
  | k :: _ =>
    match s.job k with
    | some j =>
      if j.state = .ready ∧ s.spool.printer = .ready ∧ s.initBusy = false then s.startJob k j else s
    | none => s

/-- JOB_BEGIN. (DEDUCED, unsafe: log entry 29.) -/
def execJobBegin (e : Moment) (s : State) : Answered := s.event e (fun s => if s.running then s.beginJob else s)

end Sys2Proof.Machine
end

