-- ==== Sys2Proof/Machine/Star.lean ====
section
/-! DEFINITION. The rows of a star port (chapter 3): link presence, frames arriving, node aging and sending. -/

namespace Sys2Proof.Machine

/-! ### Link (R42 to R44) -/

/-- The link presence input of a port. -/
def State.setLink (s : State) (p : PortId) (present : Bool) : State :=
  { s with pins := { s.pins with link := s.pins.link.set p present } }

/-- Link presence is reported: a DOWN port becomes UP. -/
def State.linkUp (s : State) (p : PortId) : State :=
  let t := s.setLink p true
  if s.started && decide ((s.port p).state = .down) then t.portUp p else t

/-- LINK_PRESENT. -/
def execLinkPresent (e : Moment) (p : PortId) (s : State) : Answered := s.event e (fun s => s.linkUp p)

/-- Link presence is lost: an UP port becomes DOWN, and no more of a frame can come to an ISOLATED one. -/
def State.linkDown (s : State) (p : PortId) : State :=
  let t := s.setLink p false
  match (s.port p).state with
  | .up => t.leavePort p false
  | .isolated => t.modPort p (fun q => { q with rx := none, staging := none })
  | .down | .disabled => t

/-- LINK_LOST. -/
def execLinkLost (e : Moment) (p : PortId) (s : State) : Answered := s.event e (fun s => s.linkDown p)

/-! ### Frames arriving (R45 to R50) -/

/-- STAR_HEADER_STAGED. -/
def execStarHeaderStaged (e : Moment) (p : PortId) (bytes : List Byte) (s : State) : Answered :=
  s.event e (fun s => s.feedPort p bytes)

/-- STAR_OVERLONG_BYTE. -/
def execStarOverlongByte (e : Moment) (p : PortId) (bytes : List Byte) (s : State) : Answered :=
  s.event e (fun s => s.feedPort p bytes)

/-- STAR_FRAME_END. -/
def execStarFrameEnd (e : Moment) (p : PortId) (bytes : List Byte) (s : State) : Answered := s.event e (fun s => s.starEnds p bytes)

/-! ### Node aging (R49) -/

/-- A node of an UP port that has not been heard for a full node age leaves the list, and its alias entry is released. -/
def State.ageNode (s : State) (p : PortId) (i : Ident) : State :=
  match (s.port p).nodes.find? (fun n => n.ident == i) with
  | some n =>
    if (s.port p).state = .up ∧ n.lastHeard + s.cfg.nodeAge * Config.sec ≤ s.now then
      let t := s.dropNode p i
      match n.entry with
      | some k => t.releaseEntry k
      | none => t
    else s
  | none => s

/-- NODE_AGE_EXPIRY. -/
def execNodeAgeExpiry (e : Moment) (p : PortId) (node : Ident) (s : State) : Answered := s.event e (fun s => s.ageNode p node)

/-! ### Sending (R52) -/

/-- The gap after the frame last sent has passed. -/
def Port.gapOver (q : Port) (now : Time) : Bool :=
  match q.lastSent with
  | some t => decide (t + Config.starGap ≤ now)
  | none => true

/-- The port's head record, when the port may begin to send it. -/
def State.readyToSend (s : State) (p : PortId) : Option StarRecord :=
  let q := s.port p
  if decide (q.state = .up) && q.sending.isNone && q.gapOver s.now && !s.pool.recovering then q.queue.head? else none

/-- A port begins sending a frame whose blocks are `bs`. -/
def State.sendStar (s : State) (p : PortId) (r : StarRecord) (bs : List BlockNo) : State :=
  let range := r.readRange
  (s.meetSingles bs (chainWords bs range.1 range.2)).modPort p (fun q =>
    { q with sending := some s.now, lineOut := s.starLine r bs
             queue := match q.queue with | [] => [] | h :: rest => { h with begun := true, phase := .sending } :: rest })

/-- A port begins sending its head record. -/
def State.beginStar (s : State) (p : PortId) : State :=
  match s.readyToSend p with
  | none => s
  | some r =>
    match State.walk 256 r.head s with
    | (t, none) => t
    | (t, some bs) => t.sendStar p r bs

/-- STAR_SEND_START. -/
def execStarSendStart (e : Moment) (p : PortId) (s : State) : Answered := s.event e (fun s => s.beginStar p)

/-- The record a port is sending, and when it began. -/
def Port.sendingRecord (q : Port) : Option (StarRecord × Time) :=
  match q.sending, q.queue with
  | some began, r :: _ => some (r, began)
  | _, _ => none

/-- The last byte of a frame leaves the port, no word of its chain having been found uncorrectable. -/
def State.starSent (s : State) (p : PortId) : State :=
  match (s.port p).sendingRecord with
  | some (r, began) =>
    if began + Config.starByte * (s.port p).lineOut.length ≤ s.now ∧ (s.metBroken r 16 Config.starByte began).isNone then
      (s.modPort p (fun q => { q with sending := none, lastSent := some s.now })).completePort p .delivered
    else s
  | none => s

/-- STAR_FRAME_SENT. -/
def execStarFrameSent (e : Moment) (p : PortId) (s : State) : Answered := s.event e (fun s => s.starSent p)

/-- The head record of a port completes DAMAGED, its chain released with a block under test (R52, R172). -/
def State.damagePort (s : State) (p : PortId) (f : TestTarget) : State :=
  match (s.port p).queue with
  | [] => s
  | r :: rest =>
    (((s.modPort p (fun q => { q with queue := rest })).countOutcome r .damaged).raisePort p .damaged).releaseTesting r.head f

/-- A port reaches a word it finds uncorrectable (R52). -/
def State.starBroken (s : State) (p : PortId) : State :=
  match (s.port p).sendingRecord with
  | some (r, began) =>
    match s.metBroken r 16 Config.starByte began with
    | some (w, f, i) =>
      let sent := linePlace r 16 i
      if began + Config.starByte * sent ≤ s.now then
        let t := (s.meetWord .starSend w).modPort p (fun q =>
          { q with sending := none, lineOut := cutStar (q.lineOut.take sent), lastSent := some (s.now + 4 * Config.starByte) })
        t.damagePort p f
      else s
    | none => s
  | none => s

/-- STAR_SEND_UNCORRECTABLE. -/
def execStarSendUncorrectable (e : Moment) (p : PortId) (s : State) : Answered := s.event e (fun s => s.starBroken p)

end Sys2Proof.Machine
end

