-- ==== Sys2Proof/Machine/Trunk.lean ====
section
/-! DEFINITION. The rows of a coax side (chapter 2): carrier, bursts, answers, attempts, collisions, waits and LINE-FAULT. -/

namespace Sys2Proof.Machine

/-! ### Carrier and bursts (R30 to R32) -/

/-- The head record's ack window is open at a moment, and no burst has begun in it. -/
def TrunkUnit.windowOpen (u : TrunkUnit) (now : Time) : Bool :=
  match u.queue with
  | [] => false
  | r :: _ => match r.phase with | .awaiting opened false => decide (now < opened + Config.slot) | _ => false

/-- A moment inside an ack window: the unit's own, or one that follows a directed frame heard (R32). -/
def TrunkUnit.inWindow (u : TrunkUnit) (now : Time) : Bool := decide (now < u.heardUntil) || decide (now < u.ownWindowUntil)

/-- How a burst that begins on a side is received (R17, R39). -/
def State.burstMode (s : State) (x : Side) : RxMode :=
  if s.loading then .ignored else if (s.side x).state = .partitioned then .countOnly else .full

/-- A burst has begun in the head record's ack window. -/
def TrunkRecord.noteBurst (r : TrunkRecord) : TrunkRecord :=
  match r.phase with
  | .awaiting opened _ => { r with phase := .awaiting opened true }
  | _ => r

/-- Carrier appears. While the unit is silent a burst begins: the quiet gap is abandoned, and an answer not yet begun with it (R19;
log entry 12). While the unit sends it is another station's carrier, and no burst (R30; log entry 54). -/
def State.beginBurst (s : State) (x : Side) : State :=
  let u := s.unit x
  if u.rx.isSome ∨ u.otherCarrier then s
  else if u.sending ≠ .silent then s.modUnit x (fun u => { u with otherCarrier := true })
  else
    let settles := u.windowOpen s.now
    let r : Reception :=
      ⟨s.now, s.burstMode x, [], none, false, false, none, false, u.inWindow s.now, settles⟩
    let t := s.modUnit x (fun u => { u with rx := some r, idleSince := none, quiet := false, answer := none })
    if settles then t.modHead x TrunkRecord.noteBurst else t

/-- CARRIER_ON. (DESIGN CHOICE, unsafe: log entries 12 and 54.) -/
def execCarrierOn (e : Moment) (x : Side) (s : State) : Answered := s.plain e (fun s => s.beginBurst x)

/-- HEADER_STAGED. -/
def execHeaderStaged (e : Moment) (x : Side) (bytes : List Byte) (s : State) : Answered := s.event e (fun s => s.feed x bytes)

/-- BLOCK_REQUEST. -/
def execBlockRequest (e : Moment) (i : Inlet) (bytes : List Byte) (s : State) : Answered :=
  s.event e (fun s => match i with | .trunk x => s.feed x bytes | .star p => s.feedPort p bytes)

/-- TRUNK_OVERLONG_BYTE. -/
def execTrunkOverlongByte (e : Moment) (x : Side) (bytes : List Byte) (s : State) : Answered :=
  s.event e (fun s => s.feed x bytes)

/-- The 2.5 ms mark of a burst (R30). -/
def State.jabberMark (s : State) (x : Side) : State :=
  match (s.unit x).rx with
  | some r =>
    if r.mode ≠ .ignored ∧ !r.jabber ∧ r.began + Config.jabber ≤ s.now then
      let t := (s.releaseChain r.chain).modRx x (fun r => { r with jabber := true, chain := none })
      (t.modWindow x (fun w => { w with jb := bump w.jb })).raiseSide x .jabbers
    else s
  | none => s

/-- JABBER. -/
def execJabber (e : Moment) (x : Side) (s : State) : Answered := s.event e (fun s => s.jabberMark x)

/-- BURST_END. -/
def execBurstEnd (e : Moment) (x : Side) (bytes : List Byte) (s : State) : Answered := s.event e (fun s => s.burstEnds x bytes)

/-! ### Answers (R28) -/

/-- The head record's backoff wait begins at the end of the quiet gap (R21). -/
def TrunkRecord.beginBackoff (r : TrunkRecord) (now : Time) : TrunkRecord :=
  match r.phase with
  | .backoffDue b => { r with phase := if b = 0 then .due else .backoff (now + b * Config.slot) }
  | _ => r

/-- The decided answer begins (R28). -/
def TrunkUnit.beginAnswer (u : TrunkUnit) (now : Time) : TrunkUnit :=
  match u.answer with
  | some a =>
    { u with answer := none, sending := .answer a.nak.isNone now, lineOut := answerFrame a, idleSince := none, quiet := false }
  | none => { u with quiet := true }

/-- The quiet gap has passed (R19). -/
def State.quietGap (s : State) (x : Side) : State :=
  let u := s.unit x
  let passed : Bool := match u.idleSince with | some t => decide (t + Config.quietGap ≤ s.now) | none => false
  if u.sending = .silent ∧ u.rx.isNone ∧ u.quiet = false ∧ passed = true then
    (s.modHead x (fun r => r.beginBackoff s.now)).modUnit x (fun u => u.beginAnswer s.now)
  else s

/-- QUIET_GAP_END. -/
def execQuietGapEnd (e : Moment) (x : Side) (s : State) : Answered := s.plain e (fun s => s.quietGap x)

/-- An answer is sent whole. -/
def State.answerSent (s : State) (x : Side) : State :=
  match (s.unit x).sending with
  | .answer isAck began =>
    if began + 16 * Config.trunkByte ≤ s.now then
      (s.modUnit x (fun u => u.silent s.now)).raiseSide x (if isAck then .acksSent else .naksSent)
    else s
  | _ => s

/-- ANSWER_END. -/
def execAnswerEnd (e : Moment) (x : Side) (s : State) : Answered := s.plain e (fun s => s.answerSent x)

/-! ### Attempts (R19, R20, R27) -/

/-- The conditions of R19 for an attempt, but for the head record. -/
def State.lineFree (s : State) (x : Side) : Bool :=
  let u := s.unit x
  s.started && s.joined x && !s.pool.recovering && decide (u.sending = .silent) && u.rx.isNone && u.quiet && u.answer.isNone &&
  decide (u.reservedUntil ≤ s.now)

/-- A head record is due (R19): new, its wait over, or its ack window ended after an ack miss. -/
def TrunkUnit.isDue (u : TrunkUnit) (r : TrunkRecord) (now : Time) : Bool :=
  match r.phase with
  | .due => true
  | .missed => decide (u.ownWindowUntil ≤ now)
  | _ => false

/-- An attempt at a frame whose blocks are `bs` begins. -/
def State.sendAttempt (s : State) (x : Side) (r : TrunkRecord) (bs : List BlockNo) : State :=
  let line := s.trunkLine r bs
  let range := r.readRange
  let t := (s.meetSingles bs (chainWords bs range.1 range.2)).modHead x (fun r => { r with begun := true, phase := .sending })
  let t := t.modUnit x (fun u =>
    { u with sending := .attempt s.now, lineOut := line, idleSince := none, quiet := false })
  (t.modWindow x (fun w => { w with tx := bump w.tx })).raiseSide x .attempts

/-- The head record's attempt begins (R19, R20). The block records of its chain are read here, before it is counted. (DESIGN CHOICE,
unsafe: log entry 79.) -/
def State.beginAttempt (s : State) (x : Side) : State :=
  match (s.unit x).queue with
  | [] => s
  | r :: _ =>
    if s.lineFree x && (s.unit x).isDue r s.now then
      match State.walk 256 r.head s with
      | (t, none) => t
      | (t, some bs) => t.sendAttempt x r bs
    else s

/-- ATTEMPT_BEGIN. -/
def execAttemptBegin (e : Moment) (x : Side) (s : State) : Answered := s.event e (fun s => s.beginAttempt x)

/-- The record being sent on a side, and when its attempt began. -/
def TrunkUnit.attempting (u : TrunkUnit) : Option (TrunkRecord × Time) :=
  match u.sending, u.queue with
  | .attempt began, r :: _ => some (r, began)
  | _, _ => none

/-- The recent-transmissions entry of a record sent whole (R34). -/
def State.enterTransmission (s : State) (x : Side) (r : TrunkRecord) : State :=
  if r.origin.isSide then s
  else
    let kept := s.transmissions.filter (fun t => !((t.src == r.src) && (t.seq == r.seq) && (t.kind == r.kind)))
    { s with transmissions := (if kept.length < Config.recentList then kept else kept.drop 1) ++ [⟨r.src, r.seq, r.kind, x⟩] }

/-- The last bit of an attempt is sent with no word of its chain found uncorrectable on the way (R20, R23). -/
def State.attemptSent (s : State) (x : Side) : State :=
  match (s.unit x).attempting with
  | some (r, began) =>
    if began + Config.trunkByte * (s.unit x).lineOut.length ≤ s.now ∧ (s.metBroken r 6 Config.trunkByte began).isNone then
      let t := (s.modUnit x (fun u => u.silent s.now)).enterTransmission x r
      if directed r.kind r.dest then
        (t.modUnit x (fun u => { u with ownWindowUntil := s.now + Config.slot })).modHead x
          (fun r => { r with phase := .awaiting s.now false })
      else t.completeHead x .delivered
    else s
  | none => s

/-- ATTEMPT_SENT_WHOLE. -/
def execAttemptSentWhole (e : Moment) (x : Side) (s : State) : Answered := s.event e (fun s => s.attemptSent x)

/-- The head record of a side completes DAMAGED, its chain released with a block under test (R27, R172). -/
def State.damageHead (s : State) (x : Side) (f : TestTarget) : State :=
  match (s.unit x).queue with
  | [] => s
  | r :: rest => ((s.modUnit x (fun u => { u with queue := rest })).countOutcome r .damaged).releaseTesting r.head f

/-- An attempt reaches a word it finds uncorrectable (R27). -/
def State.attemptBroken (s : State) (x : Side) : State :=
  match (s.unit x).attempting with
  | some (r, began) =>
    match s.metBroken r 6 Config.trunkByte began with
    | some (w, f, i) =>
      let sent := linePlace r 6 i
      if began + Config.trunkByte * sent ≤ s.now then
        let t := (s.meetWord .trunkSend w).modUnit x (fun u =>
          { u with sending := .cutCheck sent (s.now + 2 * Config.trunkByte), lineOut := cutTrunk (u.lineOut.take sent) })
        t.damageHead x f
      else s
    | none => s
  | none => s

/-- TRUNK_SEND_UNCORRECTABLE. -/
def execTrunkSendUncorrectable (e : Moment) (x : Side) (s : State) : Answered := s.event e (fun s => s.attemptBroken x)

/-! ### Collisions and waits (R21, R22, R24, R25) -/

/-- A collision is counted in C, Co and the collisions total, and a late one in Lc and its total. -/
def State.countCollision (s : State) (x : Side) (late : Bool) : State :=
  let t := (s.modUnit x (fun u => { u with c := u.c + 1 })).modWindow x (fun w => { w with co := bump w.co })
  let t := t.raiseSide x .collisions
  if late then (t.modWindow x (fun w => { w with lc := bump w.lc })).raiseSide x .lateCollisions else t

/-- The unit turns to its jam, `sent` bytes having gone out. -/
def TrunkUnit.toJam (u : TrunkUnit) (now : Time) (sent : Nat) : TrunkUnit :=
  { u with sending := .jam now, lineOut := u.lineOut.take sent }

/-- The unit turns to its jam from the inverted check that began at a moment behind `sent` bytes: the check goes no further. -/
def TrunkUnit.cutToJam (u : TrunkUnit) (now : Time) (sent : Nat) (check : Time) : TrunkUnit :=
  { u with sending := .cutJam now, lineOut := u.lineOut.take (sent + (now - check) / Config.trunkByte) }

/-- The number S of R22. -/
def State.backoffNumber (s : State) : Nat := ((s.boundNumber 0).getD 0).toNat

/-- An attempt collides: its record has one collision more, and is out, or waits (R21, R38); on a side not PARTITIONING it is no
longer in flight (DEDUCED, unsafe: log entry 92). Alias entry 0 is read where the wait is worked out (R22). (DEDUCED, unsafe: log
entry 45.) -/
def State.attemptCollides (s : State) (x : Side) (r : TrunkRecord) (began : Time) : State :=
  let sent := (s.now - began) / Config.trunkByte
  let n := r.collisions + 1
  let t := (s.countCollision x (decide (16 ≤ sent))).modUnit x (fun u => u.toJam s.now sent)
  if t.partitioning x then t.modHead x (fun r => { r with collisions := n, phase := .flushAfterJam })
  else if Config.collisionLimit ≤ n then t.completeHead x .collisionLimit
  else
    let t := t.checkEntry 0
    t.modHead x (fun r => { r with collisions := n, phase := .backoffDue (backoffSlots t.backoffNumber n (t.unit x).c.toNat) })

/-- A collision is reported while the unit sends (R21, R27, R28). One reported while the inverted check of a pool-recovery cut goes out
is taken as R27 takes that of an uncorrectable word's. (DESIGN CHOICE, unsafe: log entry 55.) -/
def State.collide (s : State) (x : Side) : State :=
  match (s.unit x).sending, (s.unit x).queue with
  | .attempt began, r :: _ => s.attemptCollides x r began
  | .answer _ began, _ =>
    (s.modUnit x (fun u => u.toJam s.now ((s.now - began) / Config.trunkByte))).raiseSide x .answerCollisions
  | .cutCheck sent ends, _ =>
    (s.countCollision x (decide (16 ≤ sent))).modUnit x (fun u => u.cutToJam s.now sent (ends - 2 * Config.trunkByte))
  | _, _ => s

/-- COLLISION. -/
def execCollision (e : Moment) (x : Side) (s : State) : Answered := s.event e (fun s => s.collide x)

/-- The head record awaits the end of the jam to be FLUSHED. -/
def TrunkUnit.flushesAfterJam (u : TrunkUnit) : Bool :=
  match u.queue with
  | [] => false
  | r :: _ => decide (r.phase = .flushAfterJam)

/-- The jam ends. -/
def State.jamOver (s : State) (x : Side) : State :=
  match (s.unit x).sending with
  | .jam began | .cutJam began =>
    if began + Config.jam ≤ s.now then
      let t := s.modUnit x (fun u => u.silent s.now)
      if (t.unit x).flushesAfterJam then t.completeHead x .flushed else t
    else s
  | _ => s

/-- JAM_END. (DEDUCED, unsafe: log entry 17.) -/
def execJamEnd (e : Moment) (x : Side) (s : State) : Answered := s.event e (fun s => s.jamOver x)

/-- The head record whose backoff wait has ended is due. -/
def TrunkRecord.endBackoff (r : TrunkRecord) (now : Time) : TrunkRecord :=
  match r.phase with
  | .backoff t => if t ≤ now then { r with phase := .due } else r
  | _ => r

/-- BACKOFF_WAIT_END. -/
def execBackoffWaitEnd (e : Moment) (x : Side) (s : State) : Answered :=
  s.plain e (fun s => s.modHead x (fun r => r.endBackoff s.now))

/-- The head record whose busy wait has ended is due. -/
def TrunkRecord.endBusy (r : TrunkRecord) (now : Time) : TrunkRecord :=
  match r.phase with
  | .busy t => if t ≤ now then { r with phase := .due } else r
  | _ => r

/-- BUSY_WAIT_END. -/
def execBusyWaitEnd (e : Moment) (x : Side) (s : State) : Answered :=
  s.plain e (fun s => s.modHead x (fun r => r.endBusy s.now))

/-- The head record's ack window ends with no burst begun in it (R25). -/
def State.ackWindowOver (s : State) (x : Side) : State :=
  match (s.unit x).queue with
  | [] => s
  | r :: _ =>
    match r.phase with
    | .awaiting opened false => if opened + Config.slot ≤ s.now then s.ackMiss x else s
    | _ => s

/-- ACK_WINDOW_END. -/
def execAckWindowEnd (e : Moment) (x : Side) (s : State) : Answered := s.event e (fun s => s.ackWindowOver x)

/-! ### LINE-FAULT (R36) -/

/-- LINE-FAULT takes a level; its assertion marks the window, but not while LOADING (R17). -/
def State.lineFaultLevel (s : State) (x : Side) (level : Bool) : State :=
  let t : State := { s with pins := { s.pins with lineFault := Sides.set s.pins.lineFault x level } }
  if level && s.started then t.modWindow x (fun w => { w with lf := true }) else t

/-- LINE_FAULT. (DESIGN CHOICE, safe: log entry 25.) -/
def execLineFault (e : Moment) (x : Side) (level : Bool) (s : State) : Answered := s.plain e (fun s => s.lineFaultLevel x level)

end Sys2Proof.Machine
end

