-- ==== Sys2Proof/Machine/Dispatch.lean ====
section
/-! DEFINITION. One arm per command, in the order of spec/opcode_table.json, each a direct call of its meaning. -/

namespace Sys2Proof.Machine

/-- The effect of a command on everything but the queue of waiting commands. -/
def exec (i : Instr) (s : State) : Host.Outcome State Fault Refusal :=
  match i with
  | .fullReset e => Sys2Proof.Machine.execFullReset e s
  | .resetRelease e => Sys2Proof.Machine.execResetRelease e s
  | .settingsLoadEnd e image => Sys2Proof.Machine.execSettingsLoadEnd e image s
  | .runLampFlash e => Sys2Proof.Machine.execRunLampFlash e s
  | .read e => Sys2Proof.Machine.execRead e s
  | .readClear e => Sys2Proof.Machine.execReadClear e s
  | .restoreSide e => Sys2Proof.Machine.execRestoreSide e s
  | .partitionSide e => Sys2Proof.Machine.execPartitionSide e s
  | .releasePort e => Sys2Proof.Machine.execReleasePort e s
  | .cancelJob e => Sys2Proof.Machine.execCancelJob e s
  | .restart e => Sys2Proof.Machine.execRestart e s
  | .restartReleases e => Sys2Proof.Machine.execRestartReleases e s
  | .restartExecute e => Sys2Proof.Machine.execRestartExecute e s
  | .carrierOn e x => Sys2Proof.Machine.execCarrierOn e x s
  | .headerStaged e x bytes => Sys2Proof.Machine.execHeaderStaged e x bytes s
  | .blockRequest e k bytes => Sys2Proof.Machine.execBlockRequest e k bytes s
  | .trunkOverlongByte e x bytes => Sys2Proof.Machine.execTrunkOverlongByte e x bytes s
  | .jabber e x => Sys2Proof.Machine.execJabber e x s
  | .burstEnd e x bytes => Sys2Proof.Machine.execBurstEnd e x bytes s
  | .quietGapEnd e x => Sys2Proof.Machine.execQuietGapEnd e x s
  | .answerEnd e x => Sys2Proof.Machine.execAnswerEnd e x s
  | .attemptBegin e x => Sys2Proof.Machine.execAttemptBegin e x s
  | .attemptSentWhole e x => Sys2Proof.Machine.execAttemptSentWhole e x s
  | .collision e x => Sys2Proof.Machine.execCollision e x s
  | .jamEnd e x => Sys2Proof.Machine.execJamEnd e x s
  | .backoffWaitEnd e x => Sys2Proof.Machine.execBackoffWaitEnd e x s
  | .busyWaitEnd e x => Sys2Proof.Machine.execBusyWaitEnd e x s
  | .ackWindowEnd e x => Sys2Proof.Machine.execAckWindowEnd e x s
  | .trunkSendUncorrectable e x => Sys2Proof.Machine.execTrunkSendUncorrectable e x s
  | .lineFault e x level => Sys2Proof.Machine.execLineFault e x level s
  | .linkPresent e p => Sys2Proof.Machine.execLinkPresent e p s
  | .linkLost e p => Sys2Proof.Machine.execLinkLost e p s
  | .starHeaderStaged e p bytes => Sys2Proof.Machine.execStarHeaderStaged e p bytes s
  | .starOverlongByte e p bytes => Sys2Proof.Machine.execStarOverlongByte e p bytes s
  | .starFrameEnd e p bytes => Sys2Proof.Machine.execStarFrameEnd e p bytes s
  | .nodeAgeExpiry e p node => Sys2Proof.Machine.execNodeAgeExpiry e p node s
  | .starSendStart e p => Sys2Proof.Machine.execStarSendStart e p s
  | .starFrameSent e p => Sys2Proof.Machine.execStarFrameSent e p s
  | .starSendUncorrectable e p => Sys2Proof.Machine.execStarSendUncorrectable e p s
  | .retireTestEnd e verdict => Sys2Proof.Machine.execRetireTestEnd e verdict s
  | .poolRecoveryEnd e => Sys2Proof.Machine.execPoolRecoveryEnd e s
  | .directoryAgeExpiry e n => Sys2Proof.Machine.execDirectoryAgeExpiry e n s
  | .quarantineExpiry e n => Sys2Proof.Machine.execQuarantineExpiry e n s
  | .broadcastEntryExpiry e => Sys2Proof.Machine.execBroadcastEntryExpiry e s
  | .claimBegin e => Sys2Proof.Machine.execClaimBegin e s
  | .claimDue e k => Sys2Proof.Machine.execClaimDue e k s
  | .aliasBind e k => Sys2Proof.Machine.execAliasBind e k s
  | .failedRetry e k => Sys2Proof.Machine.execFailedRetry e k s
  | .holdExpiry e k => Sys2Proof.Machine.execHoldExpiry e k s
  | .announceTimerExpiry e => Sys2Proof.Machine.execAnnounceTimerExpiry e s
  | .rosterExpiry e j => Sys2Proof.Machine.execRosterExpiry e j s
  | .jobIdleExpiry e k => Sys2Proof.Machine.execJobIdleExpiry e k s
  | .slotExpiry e k => Sys2Proof.Machine.execSlotExpiry e k s
  | .printerLineChange e lines => Sys2Proof.Machine.execPrinterLineChange e lines s
  | .absentWatchEnd e => Sys2Proof.Machine.execAbsentWatchEnd e s
  | .initPulseEnd e => Sys2Proof.Machine.execInitPulseEnd e s
  | .bytePresent e => Sys2Proof.Machine.execBytePresent e s
  | .acknowledge e => Sys2Proof.Machine.execAcknowledge e s
  | .byteTimerExpiry e => Sys2Proof.Machine.execByteTimerExpiry e s
  | .jobBegin e => Sys2Proof.Machine.execJobBegin e s
  | .sideWindowEnd e x => Sys2Proof.Machine.execSideWindowEnd e x s
  | .loopHoldExpiry e x => Sys2Proof.Machine.execLoopHoldExpiry e x s
  | .loopWatchExpiry e peer => Sys2Proof.Machine.execLoopWatchExpiry e peer s
  | .loopAssessmentEnd e => Sys2Proof.Machine.execLoopAssessmentEnd e s
  | .starWindowEnd e p => Sys2Proof.Machine.execStarWindowEnd e p s
  | .starHoldExpiry e p => Sys2Proof.Machine.execStarHoldExpiry e p s
  | .scrubRead e => Sys2Proof.Machine.execScrubRead e s

end Sys2Proof.Machine
end

