-- ==== Sys2Proof/Machine/Step.lean ====
section
/-! DEFINITION. One step: the command at the front of the queue is taken; an empty queue idles (log entry 4). And the placing of a
word's command at the front, which for this part places none, since no row of the table has bits. -/

namespace Sys2Proof.Machine

/-- The command at the front of the queue runs on the state with the queue's rest. (DESIGN CHOICE, safe: log entry 4.) -/
def step (s : State) : Host.Outcome State Fault Refusal :=
  match s.pending with
  | [] => .next s
  | i :: rest => exec i { s with pending := rest }

/-- The state with the command that a word spells at the front of its queue. -/
def State.withFetchWord (s : State) (nbits w : Nat) : State :=
  match decodeTableWord nbits w with
  | some i => { s with pending := i :: s.pending }
  | none => s

end Sys2Proof.Machine
end

