-- ==== Sys2Proof/Machine/Outputs.lean ====
section
/-! DEFINITION. The output pins as the state drives them (R185, section 11.5): views of the state, which nothing reads back. -/

namespace Sys2Proof.Machine

/-- The five lamp outputs, true for lit (R185). -/
structure Lamps where
  run : Bool
  westCut : Bool
  eastCut : Bool
  printerAttention : Bool
  memoryError : Bool
deriving DecidableEq, Repr

/-- Some job is HELD (R151). -/
def State.someHeld (s : State) : Bool :=
  s.spool.jobs.toList.any (fun j => match j with | some j => decide (j.state = .held) | none => false)

/-- The side is PARTITIONED (R166). -/
def State.isCut (s : State) (x : Side) : Bool := decide ((s.side x).state = .partitioned)

/-- The lamps: dark while the device is LOADING, and otherwise each as its condition stands (R185). (DEDUCED, safe: log entry 46.) -/
def State.lamps (s : State) : Lamps where
  run := !s.loading && s.admin.runLamp
  westCut := !s.loading && s.isCut .west
  eastCut := !s.loading && s.isCut .east
  printerAttention := !s.loading && (s.someHeld || decide (s.spool.printer = .fault))
  memoryError := !s.loading && s.check.capture.isSome

/-- The printer's output lines (section 11.5, R132, R133): inactive when printing is disabled. -/
structure PrinterOutputs where
  data : Byte
  init : Bool
deriving DecidableEq, Repr

/-- The data lines hold the byte last presented, and INIT is driven while its pulse is under way. -/
def State.printerOutputs (s : State) : PrinterOutputs :=
  if s.running && s.cfg.printing then ⟨s.spool.dataLines, s.spool.initPulse.isSome⟩ else ⟨0, false⟩

/-- Whether a port sends link signalling: while DOWN, UP or ISOLATED, and not while the device is LOADING (R41, R42). -/
def State.linkSignalling (s : State) (p : PortId) : Bool := !s.loading && decide ((s.port p).state ≠ .disabled)

/-- A side's transmit enable: held inactive while the unit is silent or the device is LOADING (section 11.5). -/
def State.transmits (s : State) (x : Side) : Bool := !s.loading && decide ((s.unit x).sending ≠ .silent)

end Sys2Proof.Machine
end

