-- ==== Sys2Proof/Safety.lean ====
section
/-! DEFINITION. What counts as a sound state: the bounds that the rules state and the canonical form of block memory; and the words
the statements use: the calm states, in which no memory fault, no recovery, no unfinished partition and no unformed notice is about,
and the sound ones, in which a partition may be unfinished; what a port's leaving UP leaves; and the chains of blocks as the rules
describe them. -/

namespace Sys2Proof.Machine

/-! ### Bounds -/

/-- The bound of R153 on each side's health score. -/
def State.scoresBounded (s : State) : Prop := ∀ x, (s.side x).score ≤ 1023

/-- The bound of R18 on each side's transmit queue, and of R51 on each port's. -/
def State.queuesBounded (s : State) : Prop :=
  (∀ x, (s.unit x).queue.length ≤ Config.sideQueue) ∧ (∀ p, (s.port p).queue.length ≤ Config.starQueue)

/-- The bounds of the lists the rules limit: recent receipts (R35), recent transmissions (R34), recent broadcasts (R95), node lists
(R47), the retired list (R63), the waiting retire tests (R172), the avoid list (R118), the loop watches (R160), the claim queue (R112)
and the print order list (R145), with what keeps these two within their bounds: the queue names an entry once, and the list names
each of its jobs once, every one READY, PRINTING or HELD. -/
structure State.ListsBounded (s : State) : Prop where
  receipts : s.receipts.length ≤ Config.recentList
  transmissions : s.transmissions.length ≤ Config.recentList
  broadcasts : s.engine.broadcasts.length ≤ Config.broadcastList
  nodes : ∀ p, (s.port p).nodes.length ≤ Config.nodeList
  retired : s.pool.retired.length ≤ Config.retiredList
  waiting : s.check.waiting.length ≤ Config.waitingTests
  avoid : s.lend.avoid.length ≤ Config.avoidList
  watches : s.health.watches.length ≤ Config.watchList
  claims : s.lend.claims.length ≤ 32 ∧ s.lend.claims.Nodup
  order : s.spool.order.length ≤ 12 ∧ s.spool.order.Nodup ∧
    ∀ k ∈ s.spool.order, ∃ j, s.job k = some j ∧ (j.state = .ready ∨ j.atPrinter = true)

/-- Every bound that the rules put on a score, a queue or a list holds. -/
structure State.Bounded (s : State) : Prop where
  scores : s.scoresBounded
  queues : s.queuesBounded
  lists : s.ListsBounded

/-! ### Numbers lent -/

/-- The entries and the directory agree (R112, R114): an entry in BOUND or HELD has a record of its own, every record of our own names
such an entry, no two entries have one number, the claim queue holds entries that seek a number, each once, and while LOADING no entry
has a number. -/
structure State.NumbersAgree (s : State) : Prop where
  recorded : ∀ i c n, s.entry i = some c → c.phase.holds = some n →
    ∃ r loc ident, s.dir n = some r ∧ r.holder = .own loc ident i
  owned : ∀ n r loc ident i, s.dir n = some r → r.holder = .own loc ident i → ∃ c, s.entry i = some c ∧ c.phase.holds = some n
  distinct : ∀ i j c d n, s.entry i = some c → s.entry j = some d → c.phase.number = some n → d.phase.number = some n → i = j
  queued : s.lend.claims.Nodup ∧
    ∀ i ∈ s.lend.claims, ∃ c, s.entry i = some c ∧ (c.phase = .unbound ∨ ∃ n, c.phase = .conflict n)
  loading : s.admin.device = .loading → ∀ i c, s.entry i = some c → c.phase = .unbound

/-! ### Calm states -/

/-- No side is PARTITIONING and no PRINT-STATUS waits to be formed: the end of an event has nothing more to do. -/
structure State.Settled (s : State) : Prop where
  west : s.health.sides.west.state ≠ .partitioning
  east : s.health.sides.east.state ≠ .partitioning
  noNotice : s.spool.outbox = []

/-- Settled, with every word of the protected stores sound and no pool recovery under way. -/
structure State.Calm (s : State) : Prop extends s.Settled where
  sound : s.check.bad = []
  steady : s.pool.recovering = false

/-- No side is left to settle and no PRINT-STATUS waits to be formed: on each PARTITIONING side the attempt in flight has not ended
yet. -/
structure State.Resting (s : State) : Prop where
  inFlight : ∀ x, (s.side x).state = .partitioning → (s.unit x).inFlight = true
  noNotice : s.spool.outbox = []

/-- Resting, with every word of the protected stores sound and no pool recovery under way. -/
structure State.Sound (s : State) : Prop extends s.Resting where
  sound : s.check.bad = []
  steady : s.pool.recovering = false

/-- A unit is not putting out the inverted check of a frame ended early. -/
def TrunkUnit.uncut (u : TrunkUnit) : Prop := ∀ sent ends, u.sending ≠ .cutCheck sent ends

/-! ### A port that leaves UP -/

/-- An alias entry as a port's leaving UP leaves it (R122): of a node on that port, one BOUND is HELD from then on for the alias hold,
one HELD stays, and one that holds no number is freed; any other stays. -/
def State.leftEntry (s : State) (p : PortId) (i : EntryNo) : Option AliasEntry :=
  match s.entry i with
  | none => none
  | some c =>
    if c.client = .starNode ∧ c.port = some p then
      (match c.phase with
       | .bound n => some { c with phase := .held n (s.now + s.cfg.aliasHold * Config.sec) }
       | .held _ _ => some c
       | _ => none)
    else some c

/-- An entry that a port's leaving UP frees. -/
def State.freedBy (s : State) (p : PortId) (i : EntryNo) : Bool := (s.entry i).isSome && (s.leftEntry p i).isNone

/-- An entry that a port's leaving UP makes HELD. -/
def State.heldBy (s : State) (p : PortId) (i : EntryNo) : Bool :=
  match s.entry i with
  | some c => decide (c.client = .starNode ∧ c.port = some p) && c.phase.boundNumber.isSome
  | none => false

/-- Every record of a port's queue counted FLUSHED and its chain released, from head to tail, and then the blocks of a frame being
received handed back (R43, R51). -/
def State.portFlushed (s : State) (p : PortId) : State :=
  let t := (s.port p).queue.foldl (fun t r => (t.countOutcome r .flushed).releaseFrom r.head) s
  match (s.port p).rx with
  | some r => if r.mode = .ignored then t else t.releaseChain r.chain
  | none => t

/-- A port's totals after it leaves UP (R43, R53): one more FLUSHED for each record of its queue, and one more frame cut, or discarded
by isolation, when one was being received. -/
def Port.leftTotals (q : Port) (isolated : Bool) : Tally 13 :=
  let t := q.queue.foldl (fun c _ => c.raise 11) q.totals
  match q.rx with
  | some r => if r.mode = .ignored then t else t.raise (if isolated then 7 else 6)
  | none => t

/-- What a frame being sent is on the line when it ends at a moment: the bytes gone out, with their inverted check behind them on
isolation (R6, R43). -/
def Port.leftLine (q : Port) (now : Time) (isolated : Bool) : List Byte :=
  match q.sending with
  | none => q.lineOut
  | some began =>
    let sent := q.lineOut.take ((now - began) / 8)
    if isolated then sent ++ checkBytes32 (~~~(starCheck sent)) else sent

/-- `t` is `s` after an UP port has become ISOLATED, or DOWN (R43): the frame being sent ended at once, the queue flushed, the
reception over (the rest of its frame ignored after an isolation, log entry 47; one that no command has carried yet is counted when its
first bytes are reported, log entry 104), the entries of its nodes HELD or freed, and the nodes
kept whose entries remain. -/
structure State.Leaves (s t : State) (p : PortId) (isolated : Bool) : Prop where
  frame : t = { s with ports := t.ports, lend := t.lend, pool := (s.portFlushed p).pool, engine := (s.portFlushed p).engine }
  port : t.port p =
    { s.port p with
      state := if isolated then .isolated else .down
      queue := []
      sending := none
      lineOut := (s.port p).leftLine s.now isolated
      lastSent := if (s.port p).sending = none then (s.port p).lastSent else some (if isolated then s.now + 32 else s.now)
      rx := if isolated then (s.port p).rx.map (fun r => { r with mode := .ignored, chain := none }) else none
      staging := none
      ignoreBefore := s.now
      leftUp := if (s.port p).rx = none then some ⟨(s.port p).ignoreBefore, s.now, isolated⟩ else none
      totals := (s.port p).leftTotals isolated
      nodes := (s.port p).nodes.filter (fun n => match n.entry with | some i => !s.freedBy p i | none => false) }
  others : ∀ q, q ≠ p → t.port q =
    { s.port q with nodes := (s.port q).nodes.filter (fun n => match n.entry with | some i => !s.freedBy p i | none => true) }
  entries : ∀ i, t.entry i = s.leftEntry p i
  lend : t.lend =
    { s.lend with
      table := t.lend.table
      claims := s.lend.claims.filter (fun i => !s.freedBy p i)
      counters := ((List.finRange 32).filter (s.heldBy p)).foldl (fun c _ => c.raise 10) s.lend.counters }

/-! ### Chains -/

/-- The blocks of a FORWARDING chain charged to a tag: each links to the next, and the last has no next link (R55). -/
def Pool.Linked (p : Pool) (o : Origin) : List BlockNo → Prop
  | [] => True
  | b :: rest =>
    p.records[b].cls = .forwarding ∧ p.records[b].tag = some (.ingress o) ∧ p.records[b].next = rest.head? ∧ Pool.Linked p o rest

/-- What a list of blocks needs to be released as a chain: it is one, no block stands in it twice or is under the retire test, and
the free list's tail is FREE. -/
structure State.Releasable (s : State) (o : Origin) (bs : List BlockNo) : Prop where
  linked : s.pool.Linked o bs
  apart : bs.Nodup
  untested : ∀ b ∈ bs, s.underTest b = false
  tail : ∀ t, s.pool.tail = some t → s.pool.records[t].cls = .free

/-- The block at the head of the free list can be given to a tag: the conditions of R58 for one block hold, and the block is not
under the retire test. -/
structure State.Grants (s : State) (o : Origin) (b : BlockNo) : Prop where
  head : s.pool.head = some b
  free : 1 ≤ s.pool.free
  cap : s.pool.forwardingHeld + 1 ≤ s.cfg.forwardCap
  quota : s.heldCount o + 1 ≤ s.cfg.portQuota
  untested : s.underTest b = false

/-- A request for `n` blocks for a tag fails a condition of R58: the first that fails has this counter. -/
def State.Refuses (s : State) (n : Nat) (o : Origin) (k : PoolCount) : Prop :=
  (k = .noFree ∧ s.pool.free < n) ∨
  (k = .forwardCap ∧ n ≤ s.pool.free ∧ s.cfg.forwardCap < s.pool.forwardingHeld + n) ∨
  (k = .quota ∧ n ≤ s.pool.free ∧ s.pool.forwardingHeld + n ≤ s.cfg.forwardCap ∧ s.cfg.portQuota < s.heldCount o + n)

/-- The pool after the head block `b` is taken for a tag (R57, R58). -/
def Pool.taken (p : Pool) (b : BlockNo) (o : Origin) : Pool :=
  { p with
    records := p.records.set b ⟨.forwarding, none, false, some (.ingress o)⟩
    head := p.records[b].next
    tail := if p.records[b].next = none then none else p.tail
    free := p.free - 1
    forwardingHeld := p.forwardingHeld + 1
    held := p.held.set o.idx (p.held[o.idx] + 1) }

/-- The bytes of a list stand in a block from its byte `i` on, and every other byte of memory is as before. -/
structure Written (b : BlockNo) (i : Nat) (bytes : List Byte) (m m' : List Host.Cell) : Prop where
  inside : ∀ k v, bytes[k]? = some v → readByte m' (blockAddr b (i + k)) = v
  outside : ∀ a, (a < blockAddr b i ∨ blockAddr b (i + bytes.length) ≤ a) → readByte m' a = readByte m a

end Sys2Proof.Machine
end

