-- ==== Sys2Proof/Certificates/Slice0/Obligations.lean ====
section
/-! DEFINITION. The statements for the provers: what the rules say of each command, each as a proposition. Unless it says otherwise a
statement about a command holds for the state the command finds, `s.arrive e`: the clock at the command's moment and the upsets before
it struck; and it gives the next state whole, so that what it does not name is unchanged. -/

section Statements

open Sys2Proof Sys2Proof.Machine

/-! ### The machine, reset, settings and inspection -/

/-- A step takes the command at the front of the queue and runs it on the state with the queue's rest; on an empty queue the block
idles, which is the model's choice (log entry 4). What a command brings before its effect: the clock stands at its moment, and
nothing else moves while no word was upset and no inverted check is going out. The clock is the model's (log entry 1). -/
def Obligations.StepRunsTheFrontCommand : Prop :=
  (
    (∀ (c : Instr) (rest : List Instr) (s : State), s.pending = c :: rest → step s = exec c { s with pending := rest }) ∧
    (∀ s : State, s.pending = [] → step s = .next s)
  ) ∧
  (
    ∀ (e : Moment) (s : State), e.upsets = [] → s.now ≤ e.time → (∀ x, (s.unit x).uncut) → s.arrive e = { s with now := e.time }
  )

/-- What full reset leaves, register by register (R17, R41, R63, R64, R66, R85, R86, R95, R108, R134, R152, R165, R171, R177), in
the state the machine begins from: the trunk units, the ports, the pool with its one free list of ascending block numbers, the
directory, the engine with all its counters, the alias table, the roster, the job records, the sides, the memory check and the
administration. That entry 0 stands in the claim queue, with identifier 0, and that entry 1 is free, though no settings are read
yet, is the model's reading of R108 (log entry 7); the printer's state, the pin levels and the other values that no rule states (log
entries 8, 14 and 38) are not named here. The invariants hold after reset: memory canonical, every bound met, and the numbers lent
in agreement with the directory. -/
def Obligations.ResetLeavesItsValuesAndMeetsTheInvariants : Prop :=
  (
    State.reset.pending = [] ∧
    (∀ x, (State.reset.unit x).queue = [] ∧ (State.reset.unit x).staging = none ∧ (State.reset.unit x).c = 0 ∧
      (State.reset.unit x).window = ⟨0, 0, 0, 0, 0, 0, 0, false⟩ ∧ (State.reset.unit x).totals = Tally.zero 14 ∧
      (State.reset.unit x).sending = .silent ∧ (State.reset.unit x).rx = none ∧ (State.reset.unit x).answer = none) ∧
    State.reset.receipts = [] ∧ State.reset.transmissions = [] ∧
    (∀ p, (State.reset.port p).nodes = [] ∧ (State.reset.port p).queue = [] ∧ (State.reset.port p).staging = none ∧
      (State.reset.port p).window = ⟨0, 0, 0⟩ ∧ (State.reset.port p).totals = Tally.zero 13 ∧ (State.reset.port p).k = 0 ∧
      (State.reset.port p).lastRestore = none ∧ (State.reset.port p).holdEnd = none ∧ (State.reset.port p).isolations = 0 ∧
      (State.reset.port p).sending = none ∧ (State.reset.port p).rx = none) ∧
    State.reset.pool.head = some 0 ∧ State.reset.pool.tail = some 255 ∧ State.reset.pool.free = 256 ∧
    State.reset.pool.forwardingHeld = 0 ∧ State.reset.pool.spoolHeld = 0 ∧ State.reset.pool.retiredCount = 0 ∧
    State.reset.pool.retired = [] ∧ (∀ o, State.reset.heldCount o = 0) ∧ State.reset.pool.counters = Tally.zero 6 ∧
    State.reset.pool.recovering = false ∧
    (∀ b : BlockNo, State.reset.pool.records[b] =
      ⟨.free, if h : b.val < 255 then some ⟨b.val + 1, by omega⟩ else none, false, none⟩) ∧
    (∀ n : Byte, State.reset.dir n = none) ∧ State.reset.directory.counters = Tally.zero 8 ∧
    State.reset.engine.broadcasts = [] ∧ State.reset.engine.decodes = Tally.zero 12 ∧ State.reset.engine.drops = Tally.zero 13 ∧
    State.reset.engine.outcomes = Tally.zero 7 ∧ State.reset.engine.proxy.acked = 0 ∧ State.reset.engine.proxy.delivered = 0 ∧
    State.reset.engine.proxy.losses = Vector.replicate 6 0 ∧ State.reset.engine.proxy.queued = 0 ∧
    State.reset.entry 0 = some ⟨.junction, 0, none, .unbound, 0, 0, 0⟩ ∧ (∀ i : EntryNo, i ≠ 0 → State.reset.entry i = none) ∧
    State.reset.lend.claims = [0] ∧ State.reset.lend.avoid = [] ∧ (∀ j, State.reset.peer j = none) ∧ State.reset.lend.seq = 0 ∧
    State.reset.lend.announceAt = none ∧ State.reset.lend.counters = Tally.zero 17 ∧
    (∀ k, State.reset.job k = none) ∧ State.reset.spool.order = [] ∧ State.reset.spool.inHand = none ∧
    State.reset.spool.stall = false ∧ State.reset.spool.absentMark = false ∧ State.reset.spool.jobCounter = 1 ∧
    State.reset.spool.seq = 0 ∧ State.reset.spool.counters = Tally.zero 15 ∧
    (∀ x, (State.reset.side x).score = 0 ∧ (State.reset.side x).state = .joined ∧ (State.reset.side x).reason = none ∧
      (State.reset.side x).cleanRun = 0 ∧ (State.reset.side x).pendingRestore = false ∧ (State.reset.side x).loopHold = none ∧
      (State.reset.side x).partitionsHealth = 0 ∧ (State.reset.side x).partitionsLoop = 0 ∧
      (State.reset.side x).partitionsAdmin = 0 ∧ (State.reset.side x).restores = 0) ∧
    State.reset.health.assessment = none ∧ State.reset.health.ownLooped = false ∧ State.reset.health.watches = [] ∧
    State.reset.health.assessments = 0 ∧ State.reset.health.loopBreaks = 0 ∧
    State.reset.check.capture = none ∧ State.reset.check.further = 0 ∧ State.reset.check.corrected = 0 ∧
    State.reset.check.lastCorrected = none ∧ State.reset.check.scrubPos = 0 ∧ State.reset.check.test = none ∧
    State.reset.check.waiting = [] ∧ State.reset.check.bad = [] ∧
    State.reset.admin.device = .loading ∧ State.reset.admin.seq = 0 ∧ State.reset.admin.restartPending = none ∧
    State.reset.admin.releasesSent = none ∧ State.reset.admin.inbox = []
  ) ∧
  (
    Memory.wf State.reset.memory = true ∧ State.reset.Bounded ∧ State.reset.NumbersAgree
  )

/-- Full reset puts every block in its reset state from any state, with RESET asserted. The values of that state that no rule gives
are the model's (log entries 6, 7, 8, 14 and 38). That the clock, the waiting commands and the other pins stay, and that a burst
under way is ignored to its end, is the model's choice (log entry 49), as is that another station's carrier goes on being heard as
such (log entry 54). The release of RESET begins the EEPROM read and changes nothing else. -/
def Obligations.FullResetAndItsRelease : Prop :=
  (
    ∀ (e : Moment) (s : State),
      let ignored := fun (u : TrunkUnit) =>
        ({ TrunkUnit.reset with
            rx := u.rx.map (fun r => ⟨r.began, .ignored, [], none, false, false, none, false, false, false⟩)
            otherCarrier := u.otherCarrier
            idleSince := if u.rx.isSome || u.otherCarrier then none else some (max s.now e.time) } : TrunkUnit)
      exec (.fullReset e) s = .next
        { State.reset with
          now := max s.now e.time
          pending := s.pending
          pins := { s.pins with resetAsserted := true }
          trunk := ⟨ignored s.trunk.west, ignored s.trunk.east⟩ }
  ) ∧
  (
    ∀ (e : Moment) (s : State), (s.arrive e).admin.device = .loading → (s.arrive e).pins.resetAsserted = true →
      exec (.resetRelease e) s = .next
        { s.arrive e with
          pins := { (s.arrive e).pins with resetAsserted := false }
          admin := { (s.arrive e).admin with reading := true } }
  )

/-- The end of the read judges the image: 64 bytes answered, the signature bytes, and a sum of 0 modulo 256 make it valid, and the
device enters RUN with its clamped fields, the enabled ports UP or DOWN by their link, the claim queue 0 then 1 or 0 alone, and
every timer started; any other image is invalid as a whole, and the device enters RELAY-ONLY with the defaults, every port as it was
reset and no alias entry. Memory, the pool, the directory and the engine keep what they held. That the scrubber's first read falls 64 µs
after this moment (log entry 88), and that the RUN lamp's flash in RELAY-ONLY begins here with its lit half (log entry 90), is the
model's choice. -/
def Obligations.SettingsLoadEndJudgesTheImage : Prop :=
  ∀ (e : Moment) (image : List Byte) (s : State), let a := s.arrive e
    a.admin.device = .loading → a.admin.reading = true → a.spool.inHand = none → a.spool.initPulse = none →
    (∀ i : EntryNo, 2 ≤ i.val → a.entry i = none) →
    let valid := image.length = 64 ∧ image.getD 0 0 = 68 ∧ image.getD 1 0 = 115 ∧ (image.map BitVec.toNat).sum % 256 = 0
    let cfg := clampSettings (readSettings image)
    ∃ t, exec (.settingsLoadEnd e image) s = .next t ∧
      (∀ x, (t.unit x) = { a.unit x with window := { (a.unit x).window with lf := Sides.get a.pins.lineFault x } }) ∧
      (∀ x, (t.side x) = { a.side x with windowEnd := some (a.now + Config.sec) }) ∧
      t.check = { a.check with bad := [], scrubAt := some (a.now + 64 * Config.us) } ∧
      t.now = a.now ∧ t.pending = a.pending ∧ t.pins = a.pins ∧ t.receipts = a.receipts ∧ t.transmissions = a.transmissions ∧
      t.pool = a.pool ∧ t.memory = a.memory ∧ t.directory = a.directory ∧ t.engine = a.engine ∧
      t.health.assessment = a.health.assessment ∧ t.health.watches = a.health.watches ∧ t.health.ownLooped = a.health.ownLooped ∧
      (valid →
        t.admin = { a.admin with
          device := .run, reading := false, settings := cfg, imageVersion := image.getD 2 0,
          clamped := clampedFlags (readSettings image) cfg, runLamp := true, flashAt := none } ∧
        (∀ p, (t.port p).state =
          if cfg.portMask.getLsbD p.val then (if a.pins.link[p] then .up else .down) else .disabled) ∧
        (∀ p, (t.port p).windowEnd = some (a.now + Config.sec)) ∧
        t.entry 0 = some ⟨.junction, cfg.baseId.getD 0, none, .unbound, 0, 0, 0⟩ ∧
        t.entry 1 = (if cfg.printEnable ≠ 0 then some ⟨.printer, cfg.baseId.getD 0 + 1, none, .unbound, 0, 0, 0⟩ else none) ∧
        (∀ i : EntryNo, 2 ≤ i.val → t.entry i = none) ∧
        t.lend.claims = (if cfg.printEnable ≠ 0 then [0, 1] else [0]) ∧
        t.lend.announceAt = some (a.now + cfg.announcePeriod * Config.sec) ∧
        t.lend.roster = a.lend.roster ∧ t.lend.avoid = a.lend.avoid ∧ t.lend.seq = a.lend.seq ∧
        t.spool = (if cfg.printEnable ≠ 0 then { a.spool with initPulse := some a.now, initPending := false } else a.spool)) ∧
      (¬ valid →
        t.admin = { a.admin with
          device := .relayOnly, reading := false, settings := Settings.default, imageVersion := 0, clamped := 0, runLamp := true,
          flashAt := some (a.now + 500 * Config.ms) } ∧
        t.ports = a.ports ∧ (∀ i, t.entry i = none) ∧ t.lend.claims = [] ∧ t.spool = a.spool)

/-- Clamping sets every field into its range, and makes the relations of R179 hold: the lending range lies below the reserved range
and holds at least eight numbers, and the restore threshold lies at least 32 below the partition threshold. A field in its range, whose
relations hold, is taken as it stands, and one outside it takes the nearer limit; then, in this order, reservedLow is raised to 9,
lendHigh lowered below it, and a lending range of fewer than eight numbers widened downward, or made 1 to 8; and the restore threshold
is lowered to 32 below the clamped partition threshold. The trunk prefix, the enable mask, print enable and the separator default
are taken as they stand. The settings status has the flag of a field set exactly when clamping changed that field, and no other. -/
def Obligations.ClampedSettingsHoldTheirRanges : Prop :=
  ∀ image : List Byte, let raw := readSettings image
    let c := clampSettings raw
    (
      1 ≤ c.lendLow ∧ c.lendLow + 7 ≤ c.lendHigh ∧ c.lendHigh < c.reservedLow ∧ c.reservedLow ≤ 255 ∧
      (∀ n ∈ c.adminList, n ≠ 255) ∧
      64 ≤ c.partitionThreshold ∧ c.partitionThreshold ≤ 1000 ∧ c.restoreThreshold + 32 ≤ c.partitionThreshold ∧
      2 ≤ c.announcePeriod ∧ c.announcePeriod ≤ 60 ∧ 10 ≤ c.aliasHold ∧ c.aliasHold ≤ 600 ∧
      60 ≤ c.directoryAge ∧ c.directoryAge ≤ 3600 ∧ 10 ≤ c.quarantineTime ∧ c.quarantineTime ≤ 600 ∧
      4 ≤ c.starErrorLimit ∧ c.starErrorLimit ≤ 255 ∧ 20 ≤ c.starBroadcastLimit ∧ c.starBroadcastLimit ≤ 2000 ∧
      5 ≤ c.starHold ∧ c.starHold ≤ 300 ∧ 32 ≤ c.spoolCap ∧ c.spoolCap ≤ 192 ∧ c.spoolFloor ≤ 64 ∧
      16 ≤ c.portQuota ∧ c.portQuota ≤ 128 ∧ 10 ≤ c.jobIdle ∧ c.jobIdle ≤ 600 ∧ 30 ≤ c.nodeAge ∧ c.nodeAge ≤ 3600 ∧
      (∃ b, c.baseId = some b ∧ 1 ≤ b.toNat ∧ b.toNat ≤ 0xFFFFFFFFFFFD)
    ) ∧
    (
      let limited := fun (lo hi v : Nat) => if v < lo then lo else if hi < v then hi else v
      let low := limited 1 254 raw.lendLow
      let high := limited 1 254 raw.lendHigh
      let reserved := if limited 1 255 raw.reservedLow < 9 then 9 else limited 1 255 raw.reservedLow
      let top := if reserved - 1 < high then reserved - 1 else high
      c.reservedLow = reserved ∧
      (low + 7 ≤ top → c.lendLow = low ∧ c.lendHigh = top) ∧
      (top < low + 7 → 8 ≤ top → c.lendLow = top - 7 ∧ c.lendHigh = top) ∧
      (top < low + 7 → top < 8 → c.lendLow = 1 ∧ c.lendHigh = 8) ∧
      (∀ b, raw.baseId = some b → c.baseId =
        some (if b = 0 then 1 else if 0xFFFFFFFFFFFD < b.toNat then 0xFFFFFFFFFFFD#48 else b)) ∧
      c.adminList.length = 4 ∧
      (∀ (k : Nat) (n : Byte), raw.adminList[k]? = some n → c.adminList[k]? = some (if n = 255 then 254 else n)) ∧
      c.partitionThreshold = limited 64 1000 raw.partitionThreshold ∧
      c.restoreThreshold =
        (if c.partitionThreshold - 32 < raw.restoreThreshold then c.partitionThreshold - 32 else raw.restoreThreshold) ∧
      c.announcePeriod = limited 2 60 raw.announcePeriod ∧ c.aliasHold = limited 10 600 raw.aliasHold ∧
      c.directoryAge = limited 60 3600 raw.directoryAge ∧ c.quarantineTime = limited 10 600 raw.quarantineTime ∧
      c.starErrorLimit = limited 4 255 raw.starErrorLimit ∧ c.starBroadcastLimit = limited 20 2000 raw.starBroadcastLimit ∧
      c.starHold = limited 5 300 raw.starHold ∧ c.spoolCap = limited 32 192 raw.spoolCap ∧
      c.spoolFloor = limited 0 64 raw.spoolFloor ∧ c.portQuota = limited 16 128 raw.portQuota ∧
      c.jobIdle = limited 10 600 raw.jobIdle ∧ c.nodeAge = limited 30 3600 raw.nodeAge ∧
      c.trunkPrefix = raw.trunkPrefix ∧ c.portMask = raw.portMask ∧ c.printEnable = raw.printEnable ∧
      c.separatorDefault = raw.separatorDefault
    ) ∧
    (
      ∀ k : Nat, (clampedFlags raw c).getLsbD k = true ↔
        (k = 0 ∧ c.baseId ≠ raw.baseId) ∨ (k = 2 ∧ c.lendLow ≠ raw.lendLow) ∨ (k = 3 ∧ c.lendHigh ≠ raw.lendHigh) ∨
        (k = 4 ∧ c.reservedLow ≠ raw.reservedLow) ∨
        (5 ≤ k ∧ k ≤ 8 ∧ c.adminList[k - 5]? ≠ raw.adminList[k - 5]?) ∨
        (k = 9 ∧ c.partitionThreshold ≠ raw.partitionThreshold) ∨ (k = 10 ∧ c.restoreThreshold ≠ raw.restoreThreshold) ∨
        (k = 11 ∧ c.announcePeriod ≠ raw.announcePeriod) ∨ (k = 12 ∧ c.aliasHold ≠ raw.aliasHold) ∨
        (k = 13 ∧ c.directoryAge ≠ raw.directoryAge) ∨ (k = 14 ∧ c.quarantineTime ≠ raw.quarantineTime) ∨
        (k = 15 ∧ c.starErrorLimit ≠ raw.starErrorLimit) ∨ (k = 16 ∧ c.starBroadcastLimit ≠ raw.starBroadcastLimit) ∨
        (k = 17 ∧ c.starHold ≠ raw.starHold) ∨ (k = 21 ∧ c.spoolCap ≠ raw.spoolCap) ∨ (k = 22 ∧ c.spoolFloor ≠ raw.spoolFloor) ∨
        (k = 23 ∧ c.portQuota ≠ raw.portQuota) ∨ (k = 24 ∧ c.jobIdle ≠ raw.jobIdle) ∨ (k = 25 ∧ c.nodeAge ≠ raw.nodeAge)
    )

/-- The lamps are dark while LOADING; otherwise each cut lamp is lit while its side is PARTITIONED, PRINTER-ATTENTION while a job is
HELD or the printer state is FAULT, and MEMORY-ERROR while the capture record holds an error. That they are views of the state is
the model's choice (log entry 46). The RUN lamp alone shows a bit of its own, and only while the device is LOADING no longer: what
lights it is the settings load. In RELAY-ONLY the bit changes at each half period of 0.5 s, counted from the moment its event is
taken (log entry 41), and nothing else does; in RUN, and before the half period is over, the event changes nothing. -/
def Obligations.LampsFollowTheirConditions : Prop :=
  (∀ s : State, s.admin.device = .loading → s.lamps = ⟨false, false, false, false, false⟩) ∧
  (∀ s : State, s.admin.device ≠ .loading →
    s.lamps.run = s.admin.runLamp ∧
    (s.lamps.westCut = true ↔ (s.side .west).state = .partitioned) ∧
    (s.lamps.eastCut = true ↔ (s.side .east).state = .partitioned) ∧
    (s.lamps.printerAttention = true ↔ (∃ k j, s.job k = some j ∧ j.state = .held) ∨ s.spool.printer = .fault) ∧
    (s.lamps.memoryError = true ↔ ∃ c, s.check.capture = some c)) ∧
  (∀ (e : Moment) (s : State) (t : Time), let a := s.arrive e
    a.admin.device = .relayOnly → a.admin.flashAt = some t → t ≤ a.now →
    exec (.runLampFlash e) s = .next
      { a with admin := { a.admin with runLamp := !a.admin.runLamp, flashAt := some (a.now + 500 * Config.ms) } }) ∧
  (∀ (e : Moment) (s : State), let a := s.arrive e
    a.admin.device ≠ .relayOnly ∨ (∀ t, a.admin.flashAt = some t → a.now < t) → exec (.runLampFlash e) s = .next a)

/-- RESTART sets restart pending to the present moment and is answered 0; while one is pending it is answered 1 and sets nothing;
and from a requester off the admin list it is answered DENIED and sets nothing. Its argument is ignored (R13), so none is out of
range. The command is the oldest of the requests handed over (log entry 11), whose chain is released before the reply is formed (log
entry 50). A RESTART: 250 ms after the command a RELEASE is called for, in table order, for each entry in BOUND or HELD; 250 ms
after that every block takes its RESTART values, and the load begins: every block stands as reset leaves it, but that the retired
list stays, with every block off it FREE in one free list of ascending block numbers, as do the Check Unit's capture record, further
errors, corrected count and last corrected location (R66, R184). Neither step is taken before its time, nor out of RUN: nothing
changes then. That the clock, the waiting commands and the pins are kept, and that a burst under way is ignored to its end and
another station's carrier still heard, is the model's choice (log entries 49 and 54), and the reset values that no rule gives are
too (log entries 6, 7, 8 and 38). -/
def Obligations.RestartIsPendingReleasesAndResets : Prop :=
  (
    ∀ (e : Moment) (s : State) (r : Request) (rest : List Request), let a := s.arrive e
      let b := (a.modAdmin (fun m => { m with inbox := rest })).releaseFrom r.chain
      a.Calm → a.admin.device = .run → a.admin.inbox = r :: rest → r.op = 3 → r.command = 5 →
      (b.isAdmin r.requester = false → exec (.restart e) s = .next (b.reply r 2 [])) ∧
      (b.isAdmin r.requester = true → a.admin.restartPending = none →
        exec (.restart e) s = .next ((b.modAdmin (fun m => { m with restartPending := some a.now })).reply r 0 [0])) ∧
      (∀ t, b.isAdmin r.requester = true → a.admin.restartPending = some t → exec (.restart e) s = .next (b.reply r 0 [1]))
  ) ∧
  (
    (∀ (e : Moment) (s : State) (t : Time), let a := s.arrive e
      a.Calm → a.admin.device = .run → a.admin.restartPending = some t → a.admin.releasesSent = none → t + 250 * Config.ms ≤ a.now →
      exec (.restartReleases e) s = .next
        (((List.finRange 32).foldl (fun u i =>
            match (u.entry i).bind (fun c => c.phase.holds.map (fun n => (n, c.ident))) with
            | some (n, c) => (u.sendLend .release n ([n] ++ bytesOfIdent c) [.west, .east]).1
            | none => u) a).modAdmin (fun m => { m with releasesSent := some a.now }))) ∧
    (∀ (e : Moment) (s : State), let a := s.arrive e
      a.Calm → (a.admin.device ≠ .run ∨
        ∀ t, a.admin.restartPending = some t → a.admin.releasesSent = none → a.now < t + 250 * Config.ms) →
      exec (.restartReleases e) s = .next a) ∧
    (∀ (e : Moment) (s : State), let a := s.arrive e
      (a.admin.device ≠ .run ∨ ∀ t, a.admin.releasesSent = some t → a.now < t + 250 * Config.ms) →
      exec (.restartExecute e) s = .next a) ∧
    (∀ (e : Moment) (s : State) (t : Time), let a := s.arrive e
      let retired := a.pool.retired
      let left := (List.finRange 256).filter (fun c => decide (c ∉ retired))
      let ignored := fun (u : TrunkUnit) =>
        ({ TrunkUnit.reset with
            rx := u.rx.map (fun r => ⟨r.began, .ignored, [], none, false, false, none, false, false, false⟩)
            otherCarrier := u.otherCarrier
            idleSince := if u.rx.isSome || u.otherCarrier then none else some a.now } : TrunkUnit)
      a.admin.device = .run → a.admin.releasesSent = some t → t + 250 * Config.ms ≤ a.now →
      ∃ p : Pool, exec (.restartExecute e) s = .next
          { State.reset with
            now := a.now
            pending := a.pending
            pins := a.pins
            trunk := ⟨ignored a.trunk.west, ignored a.trunk.east⟩
            pool := p
            check := { State.reset.check with
              capture := a.check.capture, further := a.check.further, corrected := a.check.corrected,
              lastCorrected := a.check.lastCorrected }
            admin := { State.reset.admin with reading := true } } ∧
        p.retired = retired ∧ p.retiredCount = retired.length ∧ p.free = 256 - retired.length ∧
        p.head = left.head? ∧ p.tail = left.getLast? ∧ p.forwardingHeld = 0 ∧ p.spoolHeld = 0 ∧
        p.held = Vector.replicate 9 0 ∧ p.counters = Tally.zero 6 ∧ p.recovering = false ∧
        (∀ c : BlockNo, c ∈ retired → p.records[c] = ⟨.retired, none, false, none⟩) ∧
        (∀ (k : Nat) (c : BlockNo), left[k]? = some c → p.records[c] = ⟨.free, left[k + 1]?, false, none⟩))
  )

/-- A READ, or a READ-CLEAR from a requester on the admin list, is taken off the requests, its chain released, and answered OK with
the item's value; a READ-CLEAR also clears what R181 says of the item, the value being the one before the clear, and the reply
formed and placed behind it (log entry 98). An item that does not exist is answered UNKNOWN. A READ-CLEAR from anyone else is
answered DENIED and changes nothing it names. The request is the oldest handed over (log entry 11), and the item is read after the
request's chain is released (log entry 50). Of what a READ-CLEAR clears: the side totals with the partitions and restores of that
side, the loop counters, the totals and isolations of the two ports of a group, the counters of the directory, the engine, the Alias
Unit and the Print Spool to 0, the capture record with its counts, and the pool's counters; the proxy set keeps the frames in queues
counted as proxy-acked, so that the equality of R104 still holds; every other item clears nothing; and no counter group touches
memory, the pool, the queues, the directory's records or the alias table. As it is handed over with sound words, a request whose
operation code is not 1 to 3 is answered UNKNOWN whoever asks; a COMMAND whose code is not 1 to 5 is answered DENIED to a requester
off the admin list and UNKNOWN to one on it (R181, tests 1, 2 and 4), each with its chain released first (log entry 50); and any
other joins the requests to be judged, its chain kept (log entry 11). The value of each item is laid out as R182 says, field by
field and with its length, the SETTINGS item with the settings in force in all its 50 bytes; that times are whole seconds cut short
is the model's reading (log entry 43), and the fields of a free entry, an absent record and an empty slot, which are its choice (log
entry 44), are not spoken of. -/
def Obligations.ReadsAnswerAndClearTheItem : Prop :=
  (
    ∀ (e : Moment) (s : State) (r : Request) (rest : List Request), let a := s.arrive e
      let b := (a.modAdmin (fun m => { m with inbox := rest })).releaseFrom r.chain
      a.Calm → a.admin.device = .run → a.admin.inbox = r :: rest →
      (r.op = 1 → exec (.read e) s = .next
        (match itemOf r.cls r.index with
         | some i => b.reply r 0 (b.itemValue i)
         | none => b.reply r 1 (List.replicate 16 0xFF))) ∧
      (r.op = 2 → exec (.readClear e) s = .next
        (if b.isAdmin r.requester then
          (match itemOf r.cls r.index with
           | some i => (b.clearItem i).reply r 0 (b.itemValue i)
           | none => b.reply r 1 (List.replicate 16 0xFF))
         else b.reply r 2 []))
  ) ∧
  (
    ∀ (s : State) (who : Requester) (f : Form) (c : Chain) (op cls index command argument : Byte),
      s.check.bad = [] → s.pool.recovering = false →
      s.storedPayload (s.blocksOf c.first) f = [op, cls, index, command, argument] →
      let r : Request := ⟨who, op, cls, index, command, argument, c.first⟩
      let b := s.releaseFrom c.first
      ((op ≠ 1 ∧ op ≠ 2 ∧ op ≠ 3) → s.inspectFrame who f c = b.reply r 1 (List.replicate 16 0xFF)) ∧
      ((op = 3 ∧ (command = 0 ∨ 5 < command.toNat)) →
        s.inspectFrame who f c = (if b.isAdmin who then b.reply r 1 (List.replicate 16 0xFF) else b.reply r 2 [])) ∧
      ((op = 1 ∨ op = 2 ∨ (op = 3 ∧ 1 ≤ command.toNat ∧ command.toNat ≤ 5)) →
        s.inspectFrame who f c = { s with admin := { s.admin with inbox := s.admin.inbox ++ [r] } })
  ) ∧
  (
    ∀ (s : State),
      ((s.clearItem (.counters 0)).unit .west).totals = Tally.zero 14 ∧ ((s.clearItem (.counters 1)).unit .east).totals = Tally.zero 14 ∧
      (s.clearItem (.counters 0)).directory = { s.directory with counters := Tally.zero 8 } ∧
      (s.clearItem (.counters 5)).engine = { s.engine with decodes := Tally.zero 12, drops := Tally.zero 13 } ∧
      (s.clearItem (.counters 6)).engine =
        { s.engine with
          outcomes := Tally.zero 7
          proxy := ⟨BitVec.ofNat 32 s.engine.proxy.queued, 0, Vector.replicate 6 0, s.engine.proxy.queued⟩ } ∧
      (s.clearItem (.counters 7)).lend = { s.lend with counters := Tally.zero 17 } ∧
      (s.clearItem (.counters 7)).spool = { s.spool with counters := Tally.zero 15 } ∧
      s.clearItem .capture = { s with check := { s.check with capture := none, further := 0, corrected := 0, lastCorrected := none } } ∧
      s.clearItem .pool = { s with pool := { s.pool with counters := Tally.zero 6 } } ∧
      s.clearItem .settings = s ∧ s.clearItem .printer = s ∧
      (∀ x, s.clearItem (.side x) = s) ∧ (∀ p, s.clearItem (.port p) = s) ∧ (∀ i, s.clearItem (.entry i) = s) ∧
      (∀ n, s.clearItem (.directory n) = s) ∧ (∀ j, s.clearItem (.roster j) = s) ∧ (∀ k, s.clearItem (.job k) = s) ∧
      (let zeroed := fun h : SideHealth =>
        ({ h with partitionsHealth := 0, partitionsLoop := 0, partitionsAdmin := 0, restores := 0 } : SideHealth)
       (s.clearItem (.counters 0)).health =
         { s.health with
           sides := { s.health.sides with west := zeroed s.health.sides.west }, assessments := 0, loopBreaks := 0 } ∧
       (s.clearItem (.counters 1)).health =
         { s.health with sides := { s.health.sides with east := zeroed s.health.sides.east } }) ∧
      (s.clearItem (.counters 0)).trunk = { s.trunk with west := { s.trunk.west with totals := Tally.zero 14 } } ∧
      (s.clearItem (.counters 1)).trunk = { s.trunk with east := { s.trunk.east with totals := Tally.zero 14 } } ∧
      (∀ g, 2 ≤ g → g ≤ 4 → ∀ p : PortId, (s.clearItem (.counters g)).port p =
        if p.val / 2 + 2 = g then { s.port p with totals := Tally.zero 13, isolations := 0 } else s.port p) ∧
      (∀ g, (s.clearItem (.counters g)).memory = s.memory ∧ (s.clearItem (.counters g)).pool = s.pool ∧
        (s.clearItem (.counters g)).check = s.check ∧ (s.clearItem (.counters g)).now = s.now ∧
        (∀ x, ((s.clearItem (.counters g)).unit x).queue = (s.unit x).queue) ∧
        (∀ n, (s.clearItem (.counters g)).dir n = s.dir n) ∧ (∀ i, (s.clearItem (.counters g)).entry i = s.entry i))
  ) ∧
  (
    ∀ s : State,
      let w := fun n : Nat => [BitVec.ofNat 8 (min n 65535 / 256), BitVec.ofNat 8 (min n 65535)]
      let left := fun t : Option Time => match t with | some t => w ((t - s.now) / Config.sec) | none => [255, 255]
      let age := fun t : Option Time => match t with | some t => w ((s.now - t) / Config.sec) | none => [255, 255]
      let opt := fun v : Option Byte => match v with | some v => [v] | none => [(255 : Byte)]
      let flag := fun b : Bool => [if b then (1 : Byte) else 0]
      let ident := fun i : Option Ident => match i with | some i => bytesOfIdent i | none => List.replicate 6 0
      let tally := fun ns : List Nat => ns.flatMap w
      let b := fun n : Nat => BitVec.ofNat 8 n
      (∀ x, let h := s.side x
        let c := h.lastWindow
        (s.itemValue (.side x)).length = 27 ∧
        s.itemValue (.side x) =
          w h.score ++ [(match h.state with | .joined => 0 | .partitioning => 1 | .partitioned => 2 : Byte),
            (match h.reason with | some .health => 0 | some .loop => 1 | some .admin => 2 | none => 255 : Byte), b h.cleanRun] ++
          flag h.pendingRestore ++ left h.loopHold ++ tally [c.ce, c.ru, c.lc, c.jb, c.am, c.tx, c.co] ++ flag c.lf ++
          flag s.health.assessment.isSome ++ left s.health.assessment ++ flag s.health.ownLooped) ∧
      (∀ p, let q := s.port p
        let node := fun n : Option Node =>
          ident (n.map (·.ident)) ++ opt (n.bind (fun m => m.entry.map (fun i => b i.val))) ++ age (n.map (·.lastHeard))
        (s.itemValue (.port p)).length = 62 ∧
        s.itemValue (.port p) =
          [(match q.state with | .disabled => 0 | .down => 1 | .up => 2 | .isolated => 3 : Byte), b q.k, b q.queue.length] ++
          left q.holdEnd ++ age q.lastRestore ++ [b q.nodes.length] ++
          node q.nodes[0]? ++ node q.nodes[1]? ++ node q.nodes[2]? ++ node q.nodes[3]? ++ node q.nodes[4]? ++ node q.nodes[5]?) ∧
      (∀ i, (s.itemValue (.entry i)).length = 18 ∧
        (s.entry i = none → (s.itemValue (.entry i)).head? = some 0) ∧
        (∀ e, s.entry i = some e → s.itemValue (.entry i) =
          [(1 : Byte), (match e.client with | .junction => 0 | .printer => 1 | .starNode => 2 : Byte)] ++ bytesOfIdent e.ident ++
          opt (e.port.map (fun p => b (p.val + 1))) ++
          [(match e.phase with
            | .unbound => 0 | .probing _ _ => 1 | .bound _ => 2 | .held _ _ => 3 | .conflict _ => 4 | .failed _ => 5 : Byte)] ++
          opt (match e.phase with | .probing n _ | .bound n | .held n _ | .conflict n => some n | _ => none) ++
          [b e.tried, b e.probes] ++
          (match e.phase with
            | .probing _ (.running start) => w ((s.now - start) / Config.ms)
            | .probing _ (.paused kept) => w (kept / Config.ms)
            | _ => [255, 255] : List Byte) ++
          left (match e.phase with | .held _ t => some t | _ => none) ++
          (match e.phase with | .failed t => [b (min 254 ((t - s.now) / Config.sec))] | _ => [255] : List Byte))) ∧
      (∀ n, (s.itemValue (.directory n)).length = 21 ∧
        (s.dir n = none → (s.itemValue (.directory n)).head? = some 0) ∧
        (∀ r, s.dir n = some r → s.itemValue (.directory n) =
          [(1 : Byte)] ++
          (match r.holder with
            | .legacy x => [(0 : Byte), (match x with | .west => 0 | .east => 1 : Byte)] ++ ident none ++ [(255 : Byte)] ++ ident none
            | .remote x i o =>
              [(1 : Byte), (match x with | .west => 0 | .east => 1 : Byte)] ++ bytesOfIdent i ++ [(255 : Byte)] ++ bytesOfIdent o
            | .own loc i k =>
              [(2 : Byte), (match loc with | none => 8 | some p => b (p.val + 2) : Byte)] ++ bytesOfIdent i ++
              [b k.val] ++ ident none) ++
          age (some r.lastHeard) ++ [b r.moves] ++ left r.quarantine)) ∧
      (∀ j, (s.itemValue (.roster j)).length = 18 ∧
        (s.peer j = none → (s.itemValue (.roster j)).head? = some 0) ∧
        (∀ e, s.peer j = some e → s.itemValue (.roster j) =
          [(1 : Byte)] ++ bytesOfIdent e.ident ++ [e.number] ++ age e.heard.west ++ age e.heard.east ++ opt e.seq.west ++ opt e.seq.east ++
          flag e.looped ++ (match e.printer with | some (number, state) => [1, number, state] | none => [0, 255, 255] : List Byte))) ∧
      (∀ k, (s.job k = none → (s.itemValue (.job k)).length = 39 ∧ (s.itemValue (.job k)).head? = some 0) ∧
        (∀ j, s.job k = some j → j.name.length ≤ 16 → (s.itemValue (.job k)).length = 39 ∧
          s.itemValue (.job k) =
            [(1 : Byte), j.number] ++ opt j.originator ++ [b j.name.length] ++ j.name ++ List.replicate (16 - j.name.length) (0 : Byte) ++
            [b j.copies] ++ flag j.separator ++
            [(match j.state with
              | .receiving => 1 | .ready => 2 | .printing => 3 | .held => 4 | .done => 5 | .cancelled => 6 | .damaged => 7 : Byte),
             j.reason.code] ++
            w j.nextIndex ++ [b j.window] ++
            (match j.chain with | some c => [b c.first.val, b c.last.val, b c.count] | none => [255, 255, 255] : List Byte) ++
            w j.printed ++ [b j.copiesLeft] ++ age (some j.openTime) ++ age (some j.lastActivity) ++ age j.finished)) ∧
      ((s.itemValue .pool).length = 64 ∧
        (s.itemValue .pool).take 17 =
          w s.pool.free ++ w s.pool.forwardingHeld ++ [b s.pool.spoolHeld, b s.pool.retiredCount] ++
          (s.pool.held.toList.map b) ++ opt (s.pool.head.map (fun n => b n.val)) ++ opt (s.pool.tail.map (fun n => b n.val)) ∧
        ((s.itemValue .pool).drop 17).take 12 = tally s.pool.counters.toList ∧
        (∀ k, k < 35 → (s.itemValue .pool)[29 + k]? = some (match s.pool.retired[k]? with | some n => b n.val | none => 0))) ∧
      ((s.itemValue .capture).length = 15 ∧
        (s.check.capture = none → (s.itemValue .capture).head? = some 0) ∧
        (∀ c, s.check.capture = some c → (s.itemValue .capture).take 6 =
          [(1 : Byte), storeCode c.loc.store, b c.loc.index, b c.loc.offset, c.syndrome.zeroExtend 8, c.consumer.code]) ∧
        ((s.itemValue .capture).drop 6).take 3 = [b s.check.further] ++ w s.check.corrected ∧
        (s.check.lastCorrected = none → (s.itemValue .capture)[9]? = some 0) ∧
        (∀ l, s.check.lastCorrected = some l → ((s.itemValue .capture).drop 9).take 4 =
          [(1 : Byte), storeCode l.store, b l.index, b l.offset]) ∧
        (s.itemValue .capture).drop 13 = w s.check.scrubPos) ∧
      (let health := fun h : SideHealth => tally [h.partitionsHealth, h.partitionsLoop, h.partitionsAdmin, h.restores]
       let port := fun p : PortId => tally (s.port p).totals.toList ++ w (s.port p).isolations
       let long := fun v : BitVec 32 => bytesOfIdent (v.zeroExtend 48) |>.drop 2
       s.itemValue (.counters 0) = tally (s.unit .west).totals.toList ++ health (s.side .west) ++
         tally s.directory.counters.toList ++ tally [s.health.assessments, s.health.loopBreaks] ∧
       s.itemValue (.counters 1) = tally (s.unit .east).totals.toList ++ health (s.side .east) ∧
       s.itemValue (.counters 2) = port 0 ++ port 1 ∧ s.itemValue (.counters 3) = port 2 ++ port 3 ∧
       s.itemValue (.counters 4) = port 4 ++ port 5 ∧
       s.itemValue (.counters 5) = tally s.engine.decodes.toList ++ tally s.engine.drops.toList ∧
       s.itemValue (.counters 6) = tally s.engine.outcomes.toList ++ long s.engine.proxy.acked ++ long s.engine.proxy.delivered ++
         s.engine.proxy.losses.toList.flatMap long ++ w s.engine.proxy.queued ∧
       s.itemValue (.counters 7) = tally s.lend.counters.toList ++ tally s.spool.counters.toList) ∧
      (let c := s.cfg
       let pair := fun n : Nat => [b (n / 256), b n]
       c.adminList.length = 4 → (s.itemValue .settings).length = 50 ∧
        s.itemValue .settings =
          ident c.baseId ++
          [c.trunkPrefix.extractLsb' 32 8, c.trunkPrefix.extractLsb' 24 8, c.trunkPrefix.extractLsb' 16 8,
           c.trunkPrefix.extractLsb' 8 8, c.trunkPrefix.extractLsb' 0 8] ++
          [b c.lendLow, b c.lendHigh, b c.reservedLow] ++ c.adminList ++ pair c.partitionThreshold ++ pair c.restoreThreshold ++
          [b c.announcePeriod] ++ pair c.aliasHold ++ pair c.directoryAge ++ pair c.quarantineTime ++ [b c.starErrorLimit] ++
          pair c.starBroadcastLimit ++ pair c.starHold ++ [c.portMask, c.printEnable, c.separatorDefault] ++
          [b c.spoolCap, b c.spoolFloor, b c.portQuota] ++ pair c.jobIdle ++ pair c.nodeAge ++
          [s.admin.imageVersion, (match s.admin.device with | .loading => 0 | .run => 1 | .relayOnly => 2 : Byte)] ++
          [s.admin.clamped.extractLsb' 24 8, s.admin.clamped.extractLsb' 16 8, s.admin.clamped.extractLsb' 8 8,
           s.admin.clamped.extractLsb' 0 8]) ∧
      ((s.itemValue .printer).length = 23 ∧
        (s.itemValue .printer).take 11 =
          [s.spool.printer.code] ++ flag s.pins.printer.ack ++ flag s.pins.printer.busy ++ flag s.pins.printer.paperOut ++
          flag s.pins.printer.select ++ flag s.pins.printer.fault ++ flag s.spool.stall ++ flag s.spool.absentMark ++
          flag s.spool.inHand.isSome ++ [s.spool.jobCounter, b s.spool.order.length] ∧
        (∀ k, k < 12 → (s.itemValue .printer)[11 + k]? =
          some (match s.spool.order[k]? with | some n => b n.val | none => 255)))
  )

/-- RESTORE-SIDE and PARTITION-SIDE (R158). From an admin, on a side in range: RESTORE-SIDE restores a PARTITIONED side and
announces on it, and changes nothing on a JOINED one; PARTITION-SIDE gives a PARTITIONED side the reason ADMIN with no loop hold,
counted even where it is ADMIN already (log entry 85); and of a JOINED one, the other side being JOINED, it makes a PARTITIONING
side when an attempt is in flight, and cuts it at once when none is, nothing is queued and nothing being received. On a PARTITIONING
side, whose attempt is still in flight, RESTORE-SIDE sets the pending restore, and PARTITION-SIDE makes the reason ADMIN, counted,
and clears it; the side stays PARTITIONING (a pending restore is carried out when the side enters PARTITIONED, as
ScoreCutsAndRestoresTheSide says). The answer is the side's state after the command. A requester off the admin list is answered
DENIED, an argument out of range UNKNOWN. The command is the oldest request handed over (log entry 11), whose chain is released
before the reply (log entry 50); that the cut silences an answer or a jam going out is the model's reading of R39 (log entry 16),
and that an attempt cut short is in flight until its inverted check has gone out, and one that collided on a JOINED side no longer,
that of R38 (log entries 78 and 92). -/
def Obligations.SideCommandsActOnTheSide : Prop :=
  (∀ (e : Moment) (s : State) (r : Request) (rest : List Request), let a := s.arrive e
    let b := (a.modAdmin (fun m => { m with inbox := rest })).releaseFrom r.chain
    a.Calm → a.admin.device = .run → a.admin.inbox = r :: rest → r.op = 3 →
    (r.command = 1 →
      (b.isAdmin r.requester = false → exec (.restoreSide e) s = .next (b.reply r 2 [])) ∧
      (b.isAdmin r.requester = true → sideOf r.argument = none →
        exec (.restoreSide e) s = .next (b.reply r 1 (List.replicate 16 0xFF))) ∧
      (∀ x, b.isAdmin r.requester = true → sideOf r.argument = some x → (b.side x).state = .joined →
        exec (.restoreSide e) s = .next (b.reply r 0 [0])) ∧
      (∀ x, b.isAdmin r.requester = true → sideOf r.argument = some x → (b.side x).state = .partitioned →
        (∀ i en, b.entry i = some en → en.phase.isProbing = false) →
        exec (.restoreSide e) s = .next
          (((b.modSide x (fun h => { h with state := .joined, reason := none, loopHold := none, restores := bump h.restores })).announce
            [x]).reply r 0 [0]))) ∧
    (r.command = 2 →
      (b.isAdmin r.requester = false → exec (.partitionSide e) s = .next (b.reply r 2 [])) ∧
      (b.isAdmin r.requester = true → sideOf r.argument = none →
        exec (.partitionSide e) s = .next (b.reply r 1 (List.replicate 16 0xFF))) ∧
      (∀ x, b.isAdmin r.requester = true → sideOf r.argument = some x → (b.side x).state = .partitioned →
        exec (.partitionSide e) s = .next
          ((b.modSide x (fun h =>
            { h with partitionsAdmin := bump h.partitionsAdmin, reason := some .admin, loopHold := none })).reply r 0 [2])) ∧
      (∀ x, b.isAdmin r.requester = true → sideOf r.argument = some x → (b.side x).state = .joined →
        (b.side (otherSide x)).state = .joined →
        ((b.unit x).inFlight = false → (b.side x).pendingRestore = false → (b.unit x).queue = [] → (b.unit x).rx = none →
          exec (.partitionSide e) s = .next
            (((b.modSide x (fun h =>
              { h with partitionsAdmin := bump h.partitionsAdmin, reason := some .admin, state := .partitioned })).modUnit x (fun u =>
              { u with
                answer := none
                idleSince := if u.sending = .silent then u.idleSince else if u.otherCarrier then none else some a.now
                quiet := if u.sending = .silent then u.quiet else false
                sending := .silent })).reply r 0 [2])) ∧
        ((b.unit x).inFlight = true →
          exec (.partitionSide e) s = .next
            ((b.modSide x (fun h =>
              { h with partitionsAdmin := bump h.partitionsAdmin, reason := some .admin, state := .partitioning })).reply r 0 [1]))))) ∧
  (∀ (e : Moment) (s : State) (r : Request) (rest : List Request) (x : Side), let a := s.arrive e
    let b := (a.modAdmin (fun m => { m with inbox := rest })).releaseFrom r.chain
    a.check.bad = [] → a.pool.recovering = false → a.spool.outbox = [] → a.admin.device = .run → a.admin.inbox = r :: rest →
    r.op = 3 → b.isAdmin r.requester = true → sideOf r.argument = some x → (b.side x).state = .partitioning →
    (b.unit x).inFlight = true → ((b.side (otherSide x)).state ≠ .partitioning ∨ (b.unit (otherSide x)).inFlight = true) →
    (r.command = 1 →
      exec (.restoreSide e) s = .next ((b.modSide x (fun h => { h with pendingRestore := true })).reply r 0 [1])) ∧
    (r.command = 2 →
      exec (.partitionSide e) s = .next ((b.modSide x (fun h =>
        { h with partitionsAdmin := bump h.partitionsAdmin, reason := some .admin, pendingRestore := false })).reply r 0 [1])))

/-- A reply of the inspection unit to a station behind a JOINED side, the junction's own entry being BOUND: one block is taken for
LOCAL and holds the whole INSPECT-REPLY frame, a record for it joins that side's queue as ordinary traffic, and the unit's sequence
goes up by one. Nothing else changes (R102, R180). Where the pool refuses the block, for the first of R58's conditions that fails,
the refusal is counted and nothing is formed. A PRINT-STATUS that an event called for is formed and goes out (R149): with the
printer's entry BOUND and the station behind a JOINED side, one block of LOCAL holds the frame, a record joins that side's queue,
and the spool's sequence goes up by one; a refused block leaves it not formed, and counted. That it is formed at the event's end is
the model's reading (log entry 24). A destination that would be flooded and one that is a star node are not spoken of here. -/
def Obligations.FormedRepliesAndNoticesAreQueued : Prop :=
  (
    ∀ (s : State) (r : Request) (status : Byte) (value : List Byte) (n m : Byte) (y : Side) (b : BlockNo) (d : DirRecord),
      s.Calm → Memory.wf s.memory = true → s.Grants .internal b → r.requester = .station n → n ≠ 0 → n ≠ 255 →
      s.cfg.isReserved n = false → s.boundNumber 0 = some m → s.dir n = some d → d.side = some y → d.quarantine = none →
      (s.side y).state = .joined → (s.unit y).queue.length < 32 → value.length ≤ 64 →
      let payload := [status, r.cls, r.index, BitVec.ofNat 8 value.length] ++ value
      let frame := trunkFrame ⟨n, m, 73, s.admin.seq, BitVec.ofNat 16 payload.length⟩ payload
      let record : TrunkRecord :=
        { head := b, blocks := 1, form := .trunk, asStored := false, length := trunkFrameLength payload.length,
          payload := payload.length, dest := n, src := m,
          kind := 73, seq := s.admin.seq, origin := .internal, cls := .ordinary, proxyAcked := false, collisions := 0, ackMisses := 0,
          busyCount := 0, begun := false, phase := .due }
      ∃ mem pool, s.reply r status value =
          { (s.modUnit y (fun u => { u with queue := u.queue ++ [record] })) with
            memory := mem, pool := pool, admin := { s.admin with seq := s.admin.seq + 1 } } ∧
        Written b 0 frame s.memory mem ∧
        pool = { s.pool.taken b .internal with records := s.pool.records.set b ⟨.forwarding, none, true, some (.ingress .internal)⟩ }
  ) ∧
  (
    ∀ (s : State) (r : Request) (status : Byte) (value : List Byte) (k : PoolCount), s.Calm → value.length ≤ 64 →
      s.Refuses 1 .internal k → s.reply r status value = s.raisePool k
  ) ∧
  (
    ∀ (s : State) (n m : Byte) (payload : List Byte) (y : Side) (b : BlockNo) (d : DirRecord),
      let quiet := { s with spool := { s.spool with outbox := [] } }
      let frame := trunkFrame ⟨n, m, 21, s.spool.seq, BitVec.ofNat 16 payload.length⟩ payload
      let record : TrunkRecord :=
        { head := b, blocks := 1, form := .trunk, asStored := false, length := trunkFrameLength payload.length,
          payload := payload.length, dest := n, src := m,
          kind := 21, seq := s.spool.seq, origin := .internal, cls := .ordinary, proxyAcked := false, collisions := 0, ackMisses := 0,
          busyCount := 0, begun := false, phase := .due }
      quiet.Calm → Memory.wf s.memory = true → s.spool.outbox = [⟨.number n, payload⟩] → payload.length ≤ 97 →
      (∀ k, s.Refuses 1 .internal k → s.finish = (quiet.raisePool k).raiseSpool .notFormed) ∧
      (s.Grants .internal b → n ≠ 0 → n ≠ 255 → s.cfg.isReserved n = false → s.boundNumber 1 = some m → s.dir n = some d →
        d.side = some y → d.quarantine = none → (s.side y).state = .joined → (s.unit y).queue.length < 32 →
        ∃ mem, s.finish =
            { (quiet.modUnit y (fun u => { u with queue := u.queue ++ [record] })) with
              memory := mem
              pool := { s.pool.taken b .internal with
                records := s.pool.records.set b ⟨.forwarding, none, true, some (.ingress .internal)⟩ }
              spool := { s.spool with outbox := [], seq := s.spool.seq + 1 } } ∧
          Written b 0 frame s.memory mem)
  )

/-! ### The Buffer Pool and the protected stores -/

/-- A released chain's blocks become FREE at the tail of the free list in chain order, and the counts of their class and tag go down
by their number; nothing outside the pool changes, nor does any other block's record but the old tail's link (R57, R60). That the
old tail's record is written without being read is the model's reading (log entry 67). -/
def Obligations.ReleaseReturnsBlocksInOrder : Prop :=
  ∀ (s : State) (o : Origin) (b : BlockNo) (rest : List BlockNo), let bs := b :: rest
    s.check.bad = [] → s.pool.recovering = false → s.Releasable o bs →
    ∃ pool, s.releaseFrom b = { s with pool := pool } ∧
      pool.tail = bs.getLast? ∧ pool.head = (if s.pool.tail = none then some b else s.pool.head) ∧
      pool.free = s.pool.free + bs.length ∧ pool.forwardingHeld = s.pool.forwardingHeld - bs.length ∧
      (∀ q, pool.held[q] = if q = o.idx then s.pool.held[q] - bs.length else s.pool.held[q]) ∧
      pool.spoolHeld = s.pool.spoolHeld ∧ pool.retiredCount = s.pool.retiredCount ∧ pool.retired = s.pool.retired ∧
      pool.counters = s.pool.counters ∧ pool.recovering = false ∧
      (∀ c ∈ bs, pool.records[c] = ⟨.free, s.pool.records[c].next, false, none⟩) ∧
      (∀ c, c ∉ bs → s.pool.tail ≠ some c → pool.records[c] = s.pool.records[c]) ∧
      (∀ t, s.pool.tail = some t → pool.records[t] = { s.pool.records[t] with next := some b })

/-- A unit's request for one block takes the block at the head of the free list: FORWARDING, tagged, with no next link and no end
mark; the list's head passes to the next block and the counts follow. A request that fails a condition is refused for the first
condition that fails, counted, and takes nothing (R58). -/
def Obligations.BlockRequestTakesTheHead : Prop :=
  (∀ (s : State) (o : Origin) (b : BlockNo), s.check.bad = [] → s.pool.recovering = false → s.Grants o b →
    s.requestBlock o none = ({ s with pool := s.pool.taken b o }, some ⟨b, b, 1⟩)) ∧
  (∀ (s : State) (o : Origin) (b : BlockNo) (c : Chain), s.check.bad = [] → s.pool.recovering = false → s.Grants o b →
    s.requestBlock o (some c) =
      ({ s with pool := { s.pool.taken b o with
           records := (s.pool.taken b o).records.set c.last { (s.pool.taken b o).records[c.last] with next := some b } } },
        some ⟨c.first, b, c.count + 1⟩)) ∧
  (∀ (s : State) (o : Origin) (c : Option Chain), s.pool.recovering = false →
    (s.pool.free = 0 → s.requestBlock o c = (s.raisePool .noFree, none)) ∧
    (0 < s.pool.free → s.cfg.forwardCap < s.pool.forwardingHeld + 1 → s.requestBlock o c = (s.raisePool .forwardCap, none)) ∧
    (0 < s.pool.free → s.pool.forwardingHeld + 1 ≤ s.cfg.forwardCap → s.cfg.portQuota < s.heldCount o + 1 →
      s.requestBlock o c = (s.raisePool .quota, none))) ∧
  (∀ (s : State) (o : Origin) (c : Option Chain), s.pool.recovering = true → s.requestBlock o c = (s.raisePool .noFree, none))

/-- Memory: a byte stored reads back and every other byte reads as before, over canonical memory, which every store keeps canonical;
and the bytes a chain's block is given stand in it, with every byte outside them as it was. -/
def Obligations.StoredBytesReadBack : Prop :=
  (∀ (m : List Host.Cell) (a : Nat) (v : Byte), Memory.wf m = true →
    Memory.wf (writeByte m a v) = true ∧ readByte (writeByte m a v) a = v ∧
    ∀ a', a' ≠ a → readByte (writeByte m a v) a' = readByte m a') ∧
  (∀ (m m' : List Host.Cell), Memory.wf m = true → Memory.wf m' = true → (∀ a, readByte m a = readByte m' a) → m = m') ∧
  (∀ (s : State) (b : BlockNo) (i : Nat) (bytes : List Byte), Memory.wf s.memory = true → s.check.bad = [] →
    i + bytes.length ≤ 128 →
    ∃ mem, State.storeChain [b] i bytes s = { s with memory := mem } ∧ Written b i bytes s.memory mem ∧
      State.loadChain { s with memory := mem } [b] i bytes.length = bytes)

/-- A word to be tested is tested at once when no test is in hand, and is zero from then on; waits behind the others while fewer
than eight wait; and is not tested otherwise (R172). The end of a retire test 64 µs after it began, no recovery under way, its
verdict coming with the command (log entry 26): the next that waits begins in its place. With a sound read-back a block that is FREE
stays FREE and any other, held outside any chain, becomes FREE at the tail of the free list. With an error that persists and room in
the retired list, the block becomes RETIRED at the list's end: a SPOOL block and a FORWARDING one leave the counts of their class
and, for the latter, of its tag; and a FREE one leaves the free list, at its head or behind the head. With the list full the error
is counted, and the block becomes FREE or stays it (R63, R172). That the receive windows are not worked out again at a verdict is
the model's choice (log entry 68). The scrubber, in a device that is LOADING no longer, reads the word at its position every 64 µs,
counted from the moment its read is taken (log entry 41), and moves on by one, from the last of the 9,752 words to the first; a
single-bit error there is corrected, counted and its place kept (R170). An uncorrectable one is recorded, or counted as a further
one, and nothing is done to the word: in a block that is FREE and not under test the word is put to the retire test, and any other
is left for its consumer (R172, R176). -/
def Obligations.RetireTestAndScrubberTakeTheirTurns : Prop :=
  (
    ∀ (e : Moment) (s : State) (v : ReadBack) (t : TestTarget) (began : Time), let a := s.arrive e
      let ends := fun (pool : Pool) =>
        (a.check.waiting = [] →
          exec (.retireTestEnd e v) s = .next { a with check := { a.check with test := none }, pool := pool }) ∧
        (∀ (w : TestTarget) (rest : List TestTarget), Memory.wf a.memory = true → a.check.waiting = w :: rest → w.word < 32 →
          ∃ mem, exec (.retireTestEnd e v) s = .next
              { a with check := { a.check with test := some (w, a.now), waiting := rest }, pool := pool, memory := mem } ∧
            Written w.block (4 * w.word) [0, 0, 0, 0] a.memory mem)
      a.Settled → a.pool.recovering = false → a.check.bad = [] → a.check.test = some (t, began) →
      began + 64 * Config.us ≤ a.now →
      (v = .sound → a.pool.records[t.block].cls = .free →
        ends a.pool) ∧
      (v = .sound → a.pool.records[t.block].cls ≠ .free →
        ends ((a.pool.leaveClass t.block).append t.block)) ∧
      (v ≠ .sound → a.pool.records[t.block].cls = .spool → a.pool.retired.length < 64 →
        ends { a.pool with
            records := a.pool.records.set t.block ⟨.retired, none, false, none⟩
            spoolHeld := a.pool.spoolHeld - 1
            retired := a.pool.retired ++ [t.block]
            retiredCount := a.pool.retiredCount + 1 }) ∧
      (∀ o, v ≠ .sound → a.pool.records[t.block].cls = .forwarding → a.pool.records[t.block].tag = some (.ingress o) →
        a.pool.retired.length < 64 →
        ends { a.pool with
            records := a.pool.records.set t.block ⟨.retired, none, false, none⟩
            forwardingHeld := a.pool.forwardingHeld - 1
            held := a.pool.held.set o.idx (a.pool.held[o.idx] - 1)
            retired := a.pool.retired ++ [t.block]
            retiredCount := a.pool.retiredCount + 1 }) ∧
      (v ≠ .sound → a.pool.records[t.block].cls = .free → a.pool.head = some t.block → a.pool.retired.length < 64 →
        ends { a.pool with
            records := a.pool.records.set t.block ⟨.retired, none, false, none⟩
            head := a.pool.records[t.block].next
            tail := if a.pool.tail = some t.block then none else a.pool.tail
            free := a.pool.free - 1
            retired := a.pool.retired ++ [t.block]
            retiredCount := a.pool.retiredCount + 1 }) ∧
      (∀ h, v ≠ .sound → a.pool.records[t.block].cls = .free → a.pool.head = some h → h ≠ t.block →
        a.pool.records[h].next = some t.block → a.pool.retired.length < 64 →
        ends { a.pool with
            records := (a.pool.records.set h { a.pool.records[h] with next := a.pool.records[t.block].next }).set t.block
              ⟨.retired, none, false, none⟩
            tail := if a.pool.tail = some t.block then some h else a.pool.tail
            free := a.pool.free - 1
            retired := a.pool.retired ++ [t.block]
            retiredCount := a.pool.retiredCount + 1 }) ∧
      (v ≠ .sound → a.pool.records[t.block].cls = .free → 64 ≤ a.pool.retired.length →
        ends { a.pool with counters := a.pool.counters.raise 4 }) ∧
      (v ≠ .sound → a.pool.records[t.block].cls ≠ .free → 64 ≤ a.pool.retired.length →
        ends ((({ a.pool with counters := a.pool.counters.raise 4 } : Pool).leaveClass t.block).append t.block))
  ) ∧
  (
    (∀ (e : Moment) (s : State) (t : Time), let a := s.arrive e
      a.Settled → a.admin.device ≠ .loading → a.check.scrubAt = some t → t ≤ a.now → a.check.bad = [] →
      exec (.scrubRead e) s = .next
        { a with check := { a.check with
            scrubPos := if a.check.scrubPos + 1 < 9752 then a.check.scrubPos + 1 else 0
            scrubAt := some (a.now + 64 * Config.us) } }) ∧
    (∀ (e : Moment) (s : State) (t : Time) (struck : Time), let a := s.arrive e
      let loc := scrubLoc a.check.scrubPos
      a.Settled → a.admin.device ≠ .loading → a.check.scrubAt = some t → t ≤ a.now → a.check.bad = [⟨loc, .single, struck⟩] →
      a.passedOver loc = false →
      exec (.scrubRead e) s = .next
        { a with check := { a.check with
            scrubPos := if a.check.scrubPos + 1 < 9752 then a.check.scrubPos + 1 else 0
            scrubAt := some (a.now + 64 * Config.us)
            corrected := bump a.check.corrected
            lastCorrected := some loc
            bad := [] } }) ∧
    (∀ (s : State) (t : TestTarget), Memory.wf s.memory = true → t.word < 32 →
      (s.check.test = none → ∃ mem, s.needTest t =
          { s with
            memory := mem
            check := { s.check with
              test := some (t, s.now)
              bad := s.check.bad.filter (fun w => decide (w.loc ≠ ⟨.blockMemory, t.block.val, t.word⟩)) } } ∧
        Written t.block (4 * t.word) [0, 0, 0, 0] s.memory mem) ∧
      (s.check.test ≠ none → s.check.waiting.length < 8 →
        s.needTest t = { s with check := { s.check with waiting := s.check.waiting ++ [t] } }) ∧
      (s.check.test ≠ none → 8 ≤ s.check.waiting.length → s.needTest t = s)) ∧
    (∀ (e : Moment) (s : State) (t struck : Time) (syn : BitVec 7), let a := s.arrive e
      let loc := scrubLoc a.check.scrubPos
      let read : CheckUnit := { a.check with
        scrubPos := if a.check.scrubPos + 1 < 9752 then a.check.scrubPos + 1 else 0
        scrubAt := some (a.now + 64 * Config.us)
        capture := if a.check.capture = none then some ⟨loc, syn, .scrubber⟩ else a.check.capture
        further := if a.check.capture = none then a.check.further else min 255 (a.check.further + 1) }
      a.Settled → a.admin.device ≠ .loading → a.check.scrubAt = some t → t ≤ a.now →
      a.check.bad = [⟨loc, .uncorrectable syn, struck⟩] → a.passedOver loc = false → a.pool.recovering = false →
      (loc.store ≠ .blockMemory → exec (.scrubRead e) s = .next { a with check := read }) ∧
      (∀ b : BlockNo, loc.store = .blockMemory → loc.index = b.val →
        (a.pool.records[b].cls ≠ .free → exec (.scrubRead e) s = .next { a with check := read }) ∧
        (a.pool.records[b].cls = .free → a.underTest b = false →
          (Memory.wf a.memory = true → a.check.test = none → ∃ mem, exec (.scrubRead e) s = .next
              { a with check := { read with test := some (⟨b, loc.offset⟩, a.now), bad := [] }, memory := mem } ∧
            Written b (4 * loc.offset) [0, 0, 0, 0] a.memory mem) ∧
          (a.check.test ≠ none → a.check.waiting.length < 8 → exec (.scrubRead e) s = .next
            { a with check := { read with waiting := a.check.waiting ++ [⟨b, loc.offset⟩] } }) ∧
          (a.check.test ≠ none → 8 ≤ a.check.waiting.length → exec (.scrubRead e) s = .next { a with check := read }))))
  )

/-- Pool recovery, ordered for a block while none is under way (R64). The named block joins the retired list, if that has room and
does not name it already, and is counted when the list is full; one on a full list already is not counted again (the model's choice:
log entry 59). Every block on the list is RETIRED, with no link, mark or tag, and every other FREE, in one free list of ascending
block numbers; Free is 256 less the list's length, and every held count is 0. Every record of every queue is counted FLUSHED, a
port's in its port total too (R51). An attempt and a star frame being sent end at once with the inverted check of the bytes sent,
that of an attempt going out from then on; an answer or a jam being sent goes on. A reception in full keeps neither its blocks nor
its handing on, and is still counted at its end, as is a star frame in its first bytes (log entry 104); the header staging and every
other item of a unit and of a port stay (R40, R54). The requests handed over are abandoned and the retire tests dropped; the rest is
as it was. Where no word of a job record is unsound, the jobs that hold blocks, and no others, become DAMAGED with reason MEMORY and
no chain, finished now, off the print order and counted, each originator told, in slot order (log entry 95), and INIT is pulsed, or
pending with an unstalled byte in hand or a pulse under way, when a PRINTING or HELD one is among them (R148). Its end counts one
recovery and lets the pool act again (R64). Log entries 28 and 55 name the model's choices: the rebuild in the ordering event, and
the staging. A second order while one is under way retires the named block alone, or is counted, the list being full (R65); when one
comes is a free value (log entry 18). An uncorrectable word met in a block record is recorded for the pool and orders recovery for
its block (R175); a release that meets it ends there, and a request that meets it at the head is refused NO-FREE (the model's
choice: log entry 80). -/
def Obligations.PoolRecoveryRebuildsTheRecords : Prop :=
  (∀ (s : State) (b : BlockNo), s.pool.recovering = false →
    let t := s.orderRecovery b
    let old := s.pool.retired
    let retired := if b ∈ old ∨ 64 ≤ old.length then old else old ++ [b]
    let left := (List.finRange 256).filter (fun c => decide (c ∉ retired))
    let flushed := fun (q : List TrunkRecord) (u : State) => q.foldl (fun v r => v.countOutcome r .flushed) u
    let flushedStar := fun (u : State) (p : PortId) => (s.port p).queue.foldl (fun v r => v.countOutcome r .flushed) u
    let counted := (List.finRange 6).foldl flushedStar (flushed (s.unit .east).queue (flushed (s.unit .west).queue s))
    let listening := fun (r : Reception) => if r.mode = .full then { r with mode := .countOnly, chain := none } else r
    t = { s with
      pool := t.pool, trunk := t.trunk, ports := t.ports, engine := counted.engine, spool := t.spool, check := t.check
      admin := { s.admin with inbox := [] } } ∧
    t.pool.recovering = true ∧ t.pool.retired = retired ∧ t.pool.retiredCount = retired.length ∧
    t.pool.free = 256 - retired.length ∧ t.pool.forwardingHeld = 0 ∧ t.pool.spoolHeld = 0 ∧ (∀ o, t.heldCount o = 0) ∧
    t.pool.counters = (if b ∉ old ∧ 64 ≤ old.length then s.pool.counters.raise 4 else s.pool.counters) ∧
    t.pool.head = left.head? ∧ t.pool.tail = left.getLast? ∧
    (∀ c : BlockNo, c ∈ retired → t.pool.records[c] = ⟨.retired, none, false, none⟩) ∧
    (∀ (k : Nat) (c : BlockNo), left[k]? = some c → t.pool.records[c] = ⟨.free, left[k + 1]?, false, none⟩) ∧
    (∀ x, let u := s.unit x
      t.unit x = { u with
        queue := []
        rx := u.rx.map listening
        sending := (match u.sending with
          | .attempt began => .cutCheck (min ((s.now - began) / 40) u.lineOut.length) (s.now + 80)
          | other => other)
        lineOut := (match u.sending with
          | .attempt began =>
            let sent := u.lineOut.take ((s.now - began) / 40)
            sent ++ checkBytes16 (~~~(trunkCheck sent))
          | _ => u.lineOut) }) ∧
    (∀ p, let q := s.port p
      t.port p = { q with
        queue := []
        rx := q.rx.map listening
        countBefore := s.now
        sending := none
        lineOut := q.leftLine s.now true
        lastSent := if q.sending = none then q.lastSent else some (s.now + 32)
        totals := q.queue.foldl (fun c _ => c.raise 11) q.totals }) ∧
    t.check.test = none ∧ t.check.waiting = []) ∧
  (∀ (s : State) (b : BlockNo), s.pool.recovering = false → (∀ w ∈ s.check.bad, w.loc.store ≠ .jobRecords) →
    let t := s.orderRecovery b
    let holds := fun (k : Slot) => match s.job k with | some j => j.chain.isSome && !j.isFinished | none => false
    let lost := (List.finRange 12).filter holds
    let notices := fun (k : Slot) => match s.job k with
      | some j => (match j.originator with
        | some n => [(⟨.number n, statusPayload [⟨j.number, 7, Reason.memory.code, j.nextIndex, 0, 0, j.copiesLeft⟩]⟩ : Notice)]
        | none => [])
      | none => []
    let printed := lost.filter (fun k => match s.job k with | some j => j.atPrinter | none => false)
    let begins := (s.spool.inHand = none ∨ s.spool.stall = true) ∧ s.spool.initPulse = none
    t.check = { s.check with
      test := none, waiting := [], bad := s.check.bad.filter (fun w => decide (w.loc.store ≠ .blockRecords)) } ∧
    (∀ k j, s.job k = some j → holds k = true →
      t.job k = some { j with state := .damaged, reason := .memory, chain := none, window := 0, finished := some s.now }) ∧
    (∀ k, holds k = false → t.job k = s.job k) ∧
    (printed.length ≤ 1 →
      t.spool = { s.spool with
        jobs := t.spool.jobs
        order := s.spool.order.filter (fun k => !holds k)
        counters := lost.foldl (fun c _ => c.raise 11) s.spool.counters
        outbox := s.spool.outbox ++ lost.flatMap notices
        separatorDue := if printed = [] then s.spool.separatorDue else false
        initPulse := if printed ≠ [] ∧ begins then some s.now else s.spool.initPulse
        initPending := if printed = [] then s.spool.initPending else decide (¬ begins) })) ∧
  (∀ (e : Moment) (s : State), let a := s.arrive e
    a.Resting → a.check.bad = [] → a.pool.recovering = true → a.receivers = [] →
    exec (.poolRecoveryEnd e) s = .next
      { a with pool := { a.pool with recovering := false, counters := a.pool.counters.raise 5 } }) ∧
  (∀ (s : State) (b : BlockNo), s.check.bad = [] → s.pool.recovering = true → b ∉ s.pool.retired → s.pool.head = some b →
    (s.pool.retired.length < 64 →
      s.orderRecovery b = { s with pool := { s.pool with
        records := s.pool.records.set b ⟨.retired, none, false, none⟩
        head := s.pool.records[b].next
        tail := if s.pool.tail = some b then none else s.pool.tail
        free := s.pool.free - 1
        retired := s.pool.retired ++ [b]
        retiredCount := s.pool.retiredCount + 1 } }) ∧
    (64 ≤ s.pool.retired.length →
      s.orderRecovery b = { s with pool := { s.pool with counters := s.pool.counters.raise 4 } })) ∧
  (∀ (s : State) (b : BlockNo) (o struck : Nat) (syn : BitVec 7),
    let loc : WordLoc := ⟨.blockRecords, b.val, o⟩
    let hit : State := { s with check := { s.check with capture := some ⟨loc, syn, .pool⟩ } }
    s.check.bad = [⟨loc, .uncorrectable syn, struck⟩] → s.check.capture = none → s.pool.recovering = false →
    s.checkRecord b = hit.orderRecovery b ∧ s.releaseFrom b = hit.orderRecovery b ∧
    (∀ k c, s.pool.head = some b → 1 ≤ s.pool.free → s.pool.forwardingHeld + 1 ≤ s.cfg.forwardCap →
      s.heldCount k + 1 ≤ s.cfg.portQuota → s.requestBlock k c = ((hit.orderRecovery b).raisePool .noFree, none)))

/-! ### Frames arriving -/

/-- Carrier that appears while a side's unit is silent and no burst is under way begins a burst (R30): the quiet gap is abandoned;
the burst is ignored while LOADING and listen-only on a PARTITIONED side; it is marked as begun in an ack window, its own or that of
a GOOD directed burst heard (log entry 56), and, when it is the first inside the head record's own window, as the one that settles
the attempt (R23). An answer decided and not yet begun is dropped, which is the model's choice (log entry 12). Carrier that appears
while the unit sends is another station's: it is kept as such and makes no burst, a second report of carrier changes nothing, and
the end of that carrier makes the line idle from then on unless the unit still sends; this too is the model's choice (log entry 54).
-/
def Obligations.CarrierBeginsABurst : Prop :=
  (∀ (e : Moment) (x : Side) (s : State), let a := s.arrive e
    let u := a.unit x
    let mode : RxMode :=
      if a.admin.device = .loading then .ignored else if (a.side x).state = .partitioned then .countOnly else .full
    let fresh := fun settles => (⟨a.now, mode, [], none, false, false, none, false,
      decide (a.now < u.heardUntil) || decide (a.now < u.ownWindowUntil), settles⟩ : Reception)
    u.sending = .silent → u.rx = none → u.otherCarrier = false →
    (u.windowOpen a.now = false →
      exec (.carrierOn e x) s = .next (a.modUnit x (fun u =>
        { u with rx := some (fresh false), idleSince := none, quiet := false, answer := none }))) ∧
    (∀ r rest opened, u.queue = r :: rest → r.phase = .awaiting opened false → a.now < opened + 64 * Config.us →
      exec (.carrierOn e x) s = .next (a.modUnit x (fun u =>
        { u with rx := some (fresh true), idleSince := none, quiet := false, answer := none
                 queue := { r with phase := .awaiting opened true } :: rest })))) ∧
  (∀ (e : Moment) (x : Side) (s : State), let a := s.arrive e
    ((a.unit x).rx ≠ none ∨ (a.unit x).otherCarrier = true → exec (.carrierOn e x) s = .next a) ∧
    ((a.unit x).rx = none → (a.unit x).otherCarrier = false → (a.unit x).sending ≠ .silent →
      exec (.carrierOn e x) s = .next (a.modUnit x (fun u => { u with otherCarrier := true })))) ∧
  (∀ (e : Moment) (x : Side) (s : State) (bytes : List Byte), let a := s.arrive e
    a.Settled → (a.unit x).rx = none → (a.unit x).otherCarrier = true →
    exec (.burstEnd e x bytes) s = .next (a.modUnit x (fun u =>
      { u with
        otherCarrier := false
        idleSince := if u.sending = .silent then some a.now else u.idleSince
        quiet := if u.sending = .silent then false else u.quiet })))

/-- The sixth byte of a burst stages the header (R31): an ACK or NAK is not decoded and takes no block; a frame whose decode does
not keep it takes none; a kept one takes the block at the head of the free list, charged to its side, and the six bytes stand in it
with every other byte of memory as it was. The sixteenth byte of a frame on an UP port stages the star header (R45): the decode is
asked for, a frame it does not keep takes no block, and a kept one takes the head of the free list, charged to the port, with the
sixteen bytes in it and every other byte of memory as it was. A frame in its first bytes, no command having carried any, when its
port left UP, is counted among the isolated discards or the cut frames by the first command that carries its bytes, and once (R43;
the model's choice: log entry 104). A frame begun before the port became or left UP is ignored (R44), one that comes to an ISOLATED
port, or had begun when a pool recovery came, is received for its class alone (R46, R54, log entry 104), and one that comes to a
port DOWN or DISABLED changes nothing else. The keep table (R88): a trunk frame with a source that is not reserved is kept for
RELAY, FLOOD and BROADCAST, and for LOCAL when its entry is BOUND, it is no duplicate and its client takes the kind with its blocks;
a star frame is kept unless it is an answer or a lending kind or its decode drops it. The taking table (R91): what the junction's,
the printer's and a star node's entry does with each kind. -/
def Obligations.StagedHeaderTakesTheFirstBlock : Prop :=
  (
    ∀ (e : Moment) (x : Side) (s : State) (v0 v1 v2 v3 v4 v5 : Byte) (began : Time) (w settles : Bool), let a := s.arrive e
      let bytes := [v0, v1, v2, v3, v4, v5]
      let h : TrunkHeader := ⟨v0, v1, v2, v3, word16 v4 v5⟩
      let base := a.modUnit x (fun u => { u with staging := some h })
      let d := (base.decodeTrunk x h).2
      let dup := base.isReceipt h d
      let rx := fun d dup chain => (⟨began, .full, bytes, d, dup, false, chain, false, w, settles⟩ : Reception)
      a.Calm → Memory.wf a.memory = true → (a.side x).state ≠ .partitioned →
      (a.unit x).rx = some ⟨began, .full, [], none, false, false, none, false, w, settles⟩ →
      ((kindOf v2).isAnswer = true →
        exec (.headerStaged e x bytes) s = .next (base.modUnit x (fun u => { u with rx := some (rx none false none) }))) ∧
      ((kindOf v2).isAnswer = false → base.keepsTrunk h d dup = false →
        exec (.headerStaged e x bytes) s = .next (base.modUnit x (fun u => { u with rx := some (rx (some d) dup none) }))) ∧
      (∀ b, (kindOf v2).isAnswer = false → base.keepsTrunk h d dup = true → a.Grants (.side x) b →
        ∃ mem, exec (.headerStaged e x bytes) s = .next
            { (base.modUnit x (fun u => { u with rx := some (rx (some d) dup (some ⟨b, b, 1⟩)) })) with
              pool := a.pool.taken b (.side x), memory := mem } ∧
          Written b 0 bytes a.memory mem)
  ) ∧
  (
    ∀ (e : Moment) (p : PortId) (s : State) (bytes : List Byte) (h : StarHeader) (began : Time) (w settles : Bool), let a := s.arrive e
      let base := a.modPort p (fun q => { q with staging := some h })
      let d := (base.decodeStar p h).2
      let rx := fun chain => (⟨began, .full, bytes, some d, false, false, chain, false, w, settles⟩ : Reception)
      let fresh := (a.port p).rx = none ∧ (a.port p).state = .up ∧ began = a.now - 128 ∧ w = false ∧ settles = false ∧
        (∀ l, (a.port p).leftUp = some l → l.left ≤ began) ∧ (a.port p).ignoreBefore ≤ began ∧ (a.port p).countBefore ≤ began
      a.Calm → Memory.wf a.memory = true → bytes.length = 16 → starHeaderOf bytes = some h →
      fresh ∨ (a.port p).rx = some ⟨began, .full, [], none, false, false, none, false, w, settles⟩ →
      (keepsStar h d = false →
        exec (.starHeaderStaged e p bytes) s = .next (base.modPort p (fun q => { q with rx := some (rx none) }))) ∧
      (∀ b, keepsStar h d = true → a.Grants (.star p) b →
        ∃ mem, exec (.starHeaderStaged e p bytes) s = .next
            { (base.modPort p (fun q => { q with rx := some (rx (some ⟨b, b, 1⟩)) })) with
              pool := a.pool.taken b (.star p), memory := mem } ∧
          Written b 0 bytes a.memory mem)
  ) ∧
  (
    ∀ (e : Moment) (p : PortId) (s : State) (bytes : List Byte), let a := s.arrive e
      let q := a.port p
      let began := a.now - 8 * bytes.length
      let coming := fun (l : LeftUp) => q.leftUp = some l ∧ l.since ≤ began ∧ began < l.left
      let begun := fun mode taken => (⟨began, mode, taken, none, false, false, none, false, false, false⟩ : Reception)
      let answers := fun (after : State) (command : Instr) => exec command s = .next after
      a.Sound → q.rx = none →
      (∀ l, coming l →
        let total : Fin 13 := if l.isolated then 7 else 6
        let counted := { q with leftUp := none, totals := q.totals.set total (bump q.totals[total]) }
        (q.state = .down ∨ q.state = .disabled →
          answers (a.modPort p (fun _ => counted)) (.starHeaderStaged e p bytes) ∧
          answers (a.modPort p (fun _ => counted)) (.starFrameEnd e p bytes)) ∧
        (q.state = .up ∨ q.state = .isolated → began < q.ignoreBefore →
          answers (a.modPort p (fun _ => { counted with rx := some (begun .ignored []) })) (.starHeaderStaged e p bytes) ∧
          answers (a.modPort p (fun _ => { counted with staging := none })) (.starFrameEnd e p bytes))) ∧
      ((∀ l, ¬ coming l) →
        (q.state = .down ∨ q.state = .disabled →
          answers a (.starHeaderStaged e p bytes) ∧ answers a (.starFrameEnd e p bytes)) ∧
        (q.state = .up ∨ q.state = .isolated → began < q.ignoreBefore →
          answers (a.modPort p (fun q => { q with rx := some (begun .ignored []) })) (.starHeaderStaged e p bytes) ∧
          answers (a.modPort p (fun q => { q with staging := none })) (.starFrameEnd e p bytes)) ∧
        (q.state = .isolated ∨ q.state = .up ∧ began < q.countBefore → q.ignoreBefore ≤ began →
          answers (a.modPort p (fun q => { q with rx := some (begun .countOnly bytes) })) (.starHeaderStaged e p bytes)))
  ) ∧
  (
    (∀ (s : State) (h : TrunkHeader) (d : Decode) (dup : Bool),
      (s.keepsTrunk h d dup = true ↔ s.cfg.isReserved h.src = false ∧
        ((∃ y n, d = .relay y n) ∨ (∃ n, d = .flood n) ∨ d = .broadcast ∨
          ∃ i loc, d = .entry i loc ∧ dup = false ∧ (∃ c m, s.entry i = some c ∧ c.phase = .bound m) ∧
            (taking (clientKindOf i) (kindOf h.kind) = .toBlock ∨ taking (clientKindOf i) (kindOf h.kind) = .delivered)))) ∧
    (∀ (h : StarHeader) (d : Decode),
      (keepsStar h d = true ↔ (kindOf h.kind).isAnswer = false ∧ (kindOf h.kind).isLending = false ∧
        d ≠ .malformed ∧ d ≠ .reserved ∧ d ≠ .quarantine ∧ d ≠ .filter ∧ d ≠ .unreachable ∧ d ≠ .noPath ∧ d ≠ .unresolved)) ∧
    (∀ k : Kind,
      taking .junction k = (if k.isLending ∨ k = .inspectReq then .toBlock
        else if k = .datagram ∨ k = .printStatus ∨ k = .inspectReply then .discarded else .refused) ∧
      taking .printer k = (if k.isLending ∨ k.isPrintRequest then .toBlock
        else if k = .datagram ∨ k = .printStatus ∨ k = .inspectReply then .discarded else .refused) ∧
      taking .starNode k = (if k.isLending then .toBlock else if k = .unknown then .refused else .delivered))
  )

/-- The trunk decode is the first of R81's tests that holds, on the records as they stand. The star decode is the first of R82's
tests that holds: a trunk-form identifier is decoded as its number, and tests 8 to 12 take what the identifier lookup finds. The
decode of a number with no arrival side is the first of R83's tests that holds. The identifier lookup (R80) searches the OWN-ALIAS
and REMOTE-ALIAS records of the numbers 1 to 254 and changes none: with no match it finds none, and one match is what it finds; of
several, the OWN-ALIAS one, and with none the REMOTE-ALIAS one last heard latest, of two as late the one with the lower number. -/
def Obligations.DecodeIsTheFirstTestThatHolds : Prop :=
  (
    ∀ (s : State) (x : Side) (h : TrunkHeader), s.check.bad = [] →
      let quarantinedSource := (kindOf h.kind).isLending = false ∧ ∃ r, s.dir h.src = some r ∧ r.quarantine ≠ none
      let open_ := fun y => (s.side y).state = SideState.joined
      (s.decodeTrunk x h).1 = s ∧
      (s.decodeTrunk x h).2 =
        (open Classical in
        if h.dest = 0 ∨ h.src = 0 ∨ h.src = 255 then .malformed
        else if s.cfg.reservedLow ≤ h.dest.toNat ∧ h.dest.toNat ≤ 254 then .reserved
        else if quarantinedSource then .quarantine
        else if h.dest = 255 then .broadcast
        else match s.dir h.dest with
          | none => if open_ (otherSide x) then .flood h.dest else .noPath
          | some ⟨.own loc _ i, _, _, _, _⟩ => .entry i loc
          | some ⟨.legacy y, _, _, _, q⟩ | some ⟨.remote y _ _, _, _, _, q⟩ =>
            if q ≠ none then .quarantine else if y = x then .filter else if open_ y then .relay y h.dest else .unreachable)
  ) ∧
  (
    ∀ (s : State) (k : PortId) (h : StarHeader), s.check.bad = [] →
      (s.decodeStar k h).1 = s ∧
      ((h.src = 0 ∨ h.src = 0xFFFFFFFFFFFF#48) → (s.decodeStar k h).2 = .malformed) ∧
      (h.src ≠ 0 → h.src ≠ 0xFFFFFFFFFFFF#48 →
        (h.dest = 0xFFFFFFFFFFFF#48 → (s.decodeStar k h).2 = .broadcast) ∧
        (h.dest ≠ 0xFFFFFFFFFFFF#48 →
          ((∃ n ∈ (s.port k).nodes, n.ident = h.dest) → (s.decodeStar k h).2 = .filter) ∧
          ((∀ n ∈ (s.port k).nodes, n.ident ≠ h.dest) →
            (∀ j, (∃ n ∈ (s.port j).nodes, n.ident = h.dest) → (∀ i, i < j → ∀ n ∈ (s.port i).nodes, n.ident ≠ h.dest) →
              (s.decodeStar k h).2 = .switchTo j) ∧
            ((∀ j, ∀ n ∈ (s.port j).nodes, n.ident ≠ h.dest) →
              (h.dest.extractLsb' 8 40 = s.cfg.trunkPrefix → (s.decodeStar k h).2 = (s.decodeNumber (h.dest.extractLsb' 0 8)).2) ∧
              (h.dest.extractLsb' 8 40 ≠ s.cfg.trunkPrefix → s.cfg.baseId = some h.dest → (s.decodeStar k h).2 = .junction) ∧
              (h.dest.extractLsb' 8 40 ≠ s.cfg.trunkPrefix → s.cfg.baseId ≠ some h.dest → s.cfg.printEnable ≠ 0 →
                s.cfg.baseId.map (· + 1) = some h.dest → (s.decodeStar k h).2 = .printer) ∧
              (h.dest.extractLsb' 8 40 ≠ s.cfg.trunkPrefix → s.cfg.baseId ≠ some h.dest →
                (s.cfg.printEnable = 0 ∨ s.cfg.baseId.map (· + 1) ≠ some h.dest) →
                ((∀ n r, s.dir n = some r → r.ident ≠ some h.dest) → (s.decodeStar k h).2 = .unresolved) ∧
                (∀ n loc j i heard m w q, s.lookup h.dest = some (n, ⟨.own loc j i, heard, m, w, q⟩) →
                  (s.decodeStar k h).2 = .entry i loc) ∧
                (∀ n y j o heard m w q, s.lookup h.dest = some (n, ⟨.remote y j o, heard, m, w, q⟩) →
                  (q ≠ none → (s.decodeStar k h).2 = .quarantine) ∧
                  (q = none → (s.side y).state = .joined → (s.decodeStar k h).2 = .relay y n) ∧
                  (q = none → (s.side y).state ≠ .joined → (s.decodeStar k h).2 = .unreachable)))))))
  ) ∧
  (
    ∀ (s : State) (d : Byte), s.check.bad = [] →
      let open_ := fun y => (s.side y).state = SideState.joined
      (s.decodeNumber d).1 = s ∧
      (s.decodeNumber d).2 =
        (open Classical in
        if d = 0 then .malformed
        else if s.cfg.reservedLow ≤ d.toNat ∧ d.toNat ≤ 254 then .reserved
        else if d = 255 then .broadcast
        else match s.dir d with
          | none => if open_ .west ∨ open_ .east then .flood d else .noPath
          | some ⟨.own loc _ i, _, _, _, _⟩ => .entry i loc
          | some ⟨.legacy y, _, _, _, q⟩ | some ⟨.remote y _ _, _, _, _, q⟩ =>
            if q ≠ none then .quarantine else if open_ y then .relay y d else .unreachable)
  ) ∧
  (
    ∀ (s : State) (ident : Ident),
      let record := fun (n : Byte) r => n ≠ 0 ∧ n ≠ 255 ∧ s.dir n = some r
      let own := fun (r : DirRecord) => ∃ loc i, r.holder = .own loc ident i
      let remote := fun (r : DirRecord) => ∃ y peer, r.holder = .remote y ident peer
      ((∀ n r, record n r → ¬ own r ∧ ¬ remote r) → s.lookup ident = none) ∧
      (∀ n r, record n r → own r ∨ remote r → (∀ m q, record m q → own q ∨ remote q → m = n) → s.lookup ident = some (n, r)) ∧
      (∀ n r, record n r → own r → (∀ m q, record m q → own q → m = n) → s.lookup ident = some (n, r)) ∧
      (∀ n r, record n r → remote r → (∀ m q, record m q → ¬ own q) →
        (∀ m q, record m q → remote q → m = n ∨ q.lastHeard < r.lastHeard ∨ (q.lastHeard = r.lastHeard ∧ n < m)) →
        s.lookup ident = some (n, r))
  )

/-- A byte that arrives when the block in hand of a kept frame is full takes one block more, linked behind the last, and stands at
its beginning; where the pool refuses, for any of R58's conditions, the refusal is counted under the first that fails and the frame
is OVERRUN: it keeps no block, stores no further byte, and adds one to the overrun total (R31, R58). The same holds on a star port,
where the refusal adds one to the port's overruns (R45). `f` is the state just before that byte. -/
def Obligations.FullBlockAsksForAnother : Prop :=
  (∀ (e : Moment) (x : Side) (s : State) (bytes : List Byte) (v : Byte) (r : Reception) (c : Chain),
    let f := (s.arrive e).feed x bytes
    f.Calm → Memory.wf f.memory = true → (f.unit x).rx = some r → r.mode = .full → r.chain = some c → r.overrun = false →
    r.bytes.length % 128 = 0 → 128 ≤ r.bytes.length → r.bytes.length < 520 →
    (∀ b, f.Grants (.side x) b →
      ∃ mem, exec (.blockRequest e (.trunk x) (bytes ++ [v])) s = .next
          { (f.modUnit x (fun u => { u with rx := some { r with bytes := r.bytes ++ [v], chain := some ⟨c.first, b, c.count + 1⟩ } }))
            with memory := mem
                 pool := { f.pool.taken b (.side x) with
                   records := (f.pool.taken b (.side x)).records.set c.last
                     { (f.pool.taken b (.side x)).records[c.last] with next := some b } } } ∧
        Written b 0 [v] f.memory mem) ∧
    (∀ k, f.Refuses 1 (.side x) k →
      exec (.blockRequest e (.trunk x) (bytes ++ [v])) s = .next
        ((((f.raisePool k).releaseFrom c.first).modUnit x (fun u =>
          { u with rx := some { r with bytes := r.bytes ++ [v], chain := none, overrun := true } })).raiseSide x .overruns))) ∧
  (∀ (e : Moment) (p : PortId) (s : State) (bytes : List Byte) (v : Byte) (r : Reception) (c : Chain),
    let f := (s.arrive e).feedPort p bytes
    f.Calm → ((s.arrive e).port p).rx ≠ none → Memory.wf f.memory = true → (f.port p).rx = some r → r.mode = .full →
    r.chain = some c → r.overrun = false → r.bytes.length % 128 = 0 → 128 ≤ r.bytes.length → r.bytes.length < 1520 →
    (∀ b, f.Grants (.star p) b →
      ∃ mem, exec (.blockRequest e (.star p) (bytes ++ [v])) s = .next
          { (f.modPort p (fun q => { q with rx := some { r with bytes := r.bytes ++ [v], chain := some ⟨c.first, b, c.count + 1⟩ } }))
            with memory := mem
                 pool := { f.pool.taken b (.star p) with
                   records := (f.pool.taken b (.star p)).records.set c.last
                     { (f.pool.taken b (.star p)).records[c.last] with next := some b } } } ∧
        Written b 0 [v] f.memory mem) ∧
    (∀ k, f.Refuses 1 (.star p) k →
      exec (.blockRequest e (.star p) (bytes ++ [v])) s = .next
        ((((f.raisePool k).releaseFrom c.first).modPort p (fun q =>
          { q with rx := some { r with bytes := r.bytes ++ [v], chain := none, overrun := true } })).raisePort p .overruns)))

/-- The 521st byte of a trunk burst, and the 1,521st of a star frame, ends the storing: the chain is released and the frame goes on
being received for its class (R31, R45). `f` is the state just before that byte. At the 2.5 ms mark of an unbroken carrier the
reception ends, its blocks go back, and the jabber is counted once, in the window and in the total; a burst already marked, or short
of the mark, is left as it is (R30). -/
def Obligations.OverlongBytesAndJabberEndTheStoring : Prop :=
  (
    (∀ (e : Moment) (x : Side) (s : State) (bytes : List Byte) (v : Byte) (r : Reception), let f := (s.arrive e).feed x bytes
      f.Calm → (f.unit x).rx = some r → r.mode ≠ .ignored → r.bytes.length = 520 →
      exec (.trunkOverlongByte e x (bytes ++ [v])) s = .next
        (((f.modUnit x (fun u => { u with rx := some { r with bytes := r.bytes ++ [v] } })).releaseChain r.chain).modUnit x (fun u =>
          { u with rx := some { r with bytes := r.bytes ++ [v], chain := none } }))) ∧
    (∀ (e : Moment) (p : PortId) (s : State) (v : Byte) (r : Reception), let a := s.arrive e
      a.Calm → (a.port p).rx = some r → r.mode ≠ .ignored → r.bytes.length = 1520 →
      exec (.starOverlongByte e p [v]) s = .next
        (((a.modPort p (fun q => { q with rx := some { r with bytes := r.bytes ++ [v] } })).releaseChain r.chain).modPort p (fun q =>
          { q with rx := some { r with bytes := r.bytes ++ [v], chain := none } })))
  ) ∧
  (
    ∀ (e : Moment) (x : Side) (s : State) (r : Reception), let a := s.arrive e
      a.Calm → (a.unit x).rx = some r → r.mode ≠ .ignored →
      (r.jabber = false → r.began + 2500 * Config.us ≤ a.now →
        exec (.jabber e x) s = .next
          ((a.releaseChain r.chain).modUnit x (fun u =>
            { u with
              rx := some { r with jabber := true, chain := none }
              window := { u.window with jb := bump u.window.jb }
              totals := u.totals.set 5 (bump u.totals[5]) }))) ∧
      (r.jabber = true → exec (.jabber e x) s = .next a) ∧
      (a.now < r.began + 2500 * Config.us → exec (.jabber e x) s = .next a)
  )

/-- The class of a burst is that of the first of R5's tests it meets: fewer than 16 bytes RUNT, more than 520 OVERLONG, a wrong
check CHECK-ERROR, a length over 512 or one that the byte count does not bear out OVERLONG, and GOOD otherwise. A frame that the
junction forms is received GOOD, with the header it was formed with, and the same frame cut short behind any of its bytes, with the
inverted check, is received as a RUNT or a CHECK-ERROR (R1, R4, R5, R27). The class of a star frame is that of the first of R6's
tests it meets: fewer than 24 bytes RUNT, more than 1,520 OVERLONG, a wrong check CHECK-ERROR, a length over 1,500 or one that the
byte count does not bear out OVERLONG, and GOOD otherwise; and the star frames the junction forms, whole and cut short, are received
so too (R6, R52). -/
def Obligations.BurstClassesAndFormedFramesAgree : Prop :=
  (
    ∀ bytes : List Byte,
      (bytes.length < 16 → classifyTrunk bytes = .runt) ∧
      (520 < bytes.length → classifyTrunk bytes = .overlong) ∧
      (16 ≤ bytes.length → bytes.length ≤ 520 →
        bytes.drop (bytes.length - 2) ≠ checkBytes16 (trunkCheck (bytes.take (bytes.length - 2))) →
        classifyTrunk bytes = .checkError) ∧
      (∀ h, 16 ≤ bytes.length → bytes.length ≤ 520 →
        bytes.drop (bytes.length - 2) = checkBytes16 (trunkCheck (bytes.take (bytes.length - 2))) → trunkHeaderOf bytes = some h →
        classifyTrunk bytes =
          if h.len.toNat ≤ 512 ∧ bytes.length = max (6 + h.len.toNat) 14 + 2 then .good else .overlong)
  ) ∧
  (
    (∀ (h : TrunkHeader) (payload : List Byte), payload.length ≤ 512 → h.len = BitVec.ofNat 16 payload.length →
      classifyTrunk (trunkFrame h payload) = .good ∧ trunkHeaderOf (trunkFrame h payload) = some h ∧
      ((trunkFrame h payload).drop 6).take payload.length = payload) ∧
    (∀ sent : List Byte, sent.length ≤ 518 →
      classifyTrunk (cutTrunk sent) = if sent.length < 14 then .runt else .checkError)
  ) ∧
  (
    ∀ bytes : List Byte,
      (bytes.length < 24 → classifyStar bytes = .runt) ∧
      (1520 < bytes.length → classifyStar bytes = .overlong) ∧
      (24 ≤ bytes.length → bytes.length ≤ 1520 →
        bytes.drop (bytes.length - 4) ≠ checkBytes32 (starCheck (bytes.take (bytes.length - 4))) →
        classifyStar bytes = .checkError) ∧
      (∀ h, 24 ≤ bytes.length → bytes.length ≤ 1520 →
        bytes.drop (bytes.length - 4) = checkBytes32 (starCheck (bytes.take (bytes.length - 4))) → starHeaderOf bytes = some h →
        classifyStar bytes =
          if h.len.toNat ≤ 1500 ∧ bytes.length = max (16 + h.len.toNat) 20 + 4 then .good else .overlong)
  ) ∧
  (
    (∀ (h : StarHeader) (payload : List Byte), payload.length ≤ 1500 → h.len = BitVec.ofNat 16 payload.length →
      classifyStar (starFrame h payload) = .good ∧ starHeaderOf (starFrame h payload) = some h ∧
      ((starFrame h payload).drop 16).take payload.length = payload) ∧
    (∀ sent : List Byte, sent.length ≤ 1516 →
      classifyStar (cutStar sent) = if sent.length < 20 then .runt else .checkError)
  )

/-- A burst that is not GOOD is counted by its class and given up: its chain is released, the staging emptied, the quiet gap begun,
and the line left reserved behind a directed header (R19, R31, R32). One that is the first in the head record's own ack window
settles that attempt as an ack miss: it counts in the record, in Am and in the total besides, and the fourth ends the record
ACK-LIMIT (R25); on a PARTITIONING side the first ends it FLUSHED, and the side is then PARTITIONED, as ScoreCutsAndRestoresTheSide says
of `settleSide` (R38). `f` is the state when its last byte has arrived. A star frame that is not GOOD, at its end on an UP port, is
counted by its class in the port's window and totals, its blocks released and nothing of it handed on (R46); on an ISOLATED port
every frame is counted by its class, a GOOD one in the good frames alone (log entry 57), and as an isolated discard. -/
def Obligations.BadFramesAreCountedAndGivenUp : Prop :=
  (
    ∀ (e : Moment) (x : Side) (s : State) (bytes : List Byte) (r : Reception), let f := (s.arrive e).feed x bytes
      let cls := if r.jabber then BurstClass.jabber else classifyTrunk r.bytes
      f.Sound → (f.unit x).rx = some r → r.mode ≠ .ignored → r.settles = false → cls ≠ .good →
      exec (.burstEnd e x bytes) s = .next
        ((f.modUnit x (fun u =>
          { u with
            rx := none, staging := none, idleSince := some f.now, quiet := false
            reservedUntil := (match u.staging with
              | some h => if directed h.kind h.dest then f.now + 64 * Config.us else u.reservedUntil
              | none => u.reservedUntil)
            window := (match cls with
              | .checkError => { u.window with ce := bump u.window.ce }
              | .runt => if r.inAckWindow then u.window else { u.window with ru := bump u.window.ru }
              | _ => u.window)
            totals := (match cls with
              | .checkError => u.totals.set 1 (bump u.totals[1])
              | .runt => if r.inAckWindow then u.totals.set 3 (bump u.totals[3]) else u.totals.set 2 (bump u.totals[2])
              | .overlong => u.totals.set 4 (bump u.totals[4])
              | _ => u.totals) })).releaseChain r.chain)
  ) ∧
  (
    ∀ (e : Moment) (x : Side) (s : State) (bytes : List Byte) (r : Reception) (q : TrunkRecord) (rest : List TrunkRecord)
      (opened : Time), let f := (s.arrive e).feed x bytes
      let cls := if r.jabber then BurstClass.jabber else classifyTrunk r.bytes
      let missed : TrunkRecord := { q with ackMisses := q.ackMisses + 1, phase := .missed }
      let ended := fun (left : List TrunkRecord) => f.modUnit x (fun u =>
        let counted := (match cls with
          | .checkError => u.totals.set 1 (bump u.totals[1])
          | .runt => if r.inAckWindow then u.totals.set 3 (bump u.totals[3]) else u.totals.set 2 (bump u.totals[2])
          | .overlong => u.totals.set 4 (bump u.totals[4])
          | _ => u.totals)
        { u with
          rx := none, staging := none, idleSince := some f.now, quiet := false, queue := left
          reservedUntil := (match u.staging with
            | some h => if directed h.kind h.dest then f.now + 64 * Config.us else u.reservedUntil
            | none => u.reservedUntil)
          window := (match cls with
            | .checkError => { u.window with ce := bump u.window.ce, am := bump u.window.am }
            | .runt => if r.inAckWindow then { u.window with am := bump u.window.am }
              else { u.window with ru := bump u.window.ru, am := bump u.window.am }
            | _ => { u.window with am := bump u.window.am })
          totals := counted.set 10 (bump counted[10]) })
      f.Sound → (f.unit x).rx = some r → r.mode ≠ .ignored → r.settles = true → cls ≠ .good →
      (f.unit x).queue = q :: rest → q.phase = .awaiting opened true →
      ((f.side x).state ≠ .partitioning → q.ackMisses < 3 →
        exec (.burstEnd e x bytes) s = .next ((ended (missed :: rest)).releaseChain r.chain)) ∧
      ((f.side x).state ≠ .partitioning → 3 ≤ q.ackMisses →
        exec (.burstEnd e x bytes) s = .next
          ((((ended rest).countOutcome missed .ackLimit).releaseFrom q.head).releaseChain r.chain)) ∧
      ((f.side x).state = .partitioning →
        exec (.burstEnd e x bytes) s = .next
          (((((ended rest).countOutcome missed .flushed).releaseFrom q.head).releaseChain r.chain).settleSide x))
  ) ∧
  (
    ∀ (e : Moment) (p : PortId) (s : State) (bytes : List Byte) (r : Reception), let f := (s.arrive e).feedPort p bytes
      let cls := classifyStar r.bytes
      let total : Fin 13 := match cls with
        | .good => 0 | .checkError => 2 | .runt => 3 | .overlong => 4 | .jabber => 4
      f.Sound → (f.port p).rx = some r → r.mode ≠ .ignored →
      ((f.port p).state = .up → cls ≠ .good →
        exec (.starFrameEnd e p bytes) s = .next
          ((f.modPort p (fun q =>
            { q with
              rx := none, staging := none
              window := (match cls with
                | .checkError => { q.window with ce := bump q.window.ce }
                | .overlong => { q.window with ov := bump q.window.ov }
                | _ => q.window)
              totals := q.totals.set total (bump q.totals[total]) })).releaseChain r.chain)) ∧
      ((f.port p).state = .isolated →
        exec (.starFrameEnd e p bytes) s = .next
          (((f.modPort p (fun q => { q with rx := none, staging := none, totals := q.totals.set 7 (bump q.totals[7]) })).modPort p
            (fun q => { q with totals := q.totals.set total (bump q.totals[total]) })).releaseChain r.chain))
  )

/-- A GOOD directed frame kept for relaying, from a station known where it is heard, joins the other side's queue as it arrived,
proxy-acknowledged; an ACK is decided for its sender, the directory hears the source again, and the ack window behind it opens (log
entry 56); the chain's last block is marked as the end (R33, R71, R90, R92). A directed frame with no chain is counted and nothing
more under FILTER, QUARANTINE, MALFORMED, RESERVED and NO-PATH, answered NAK UNREACHABLE under UNREACHABLE, and NAK BUSY under
RELAY, its blocks having been refused (R89, R90). A directed frame for an entry of the table (R90, R91): a duplicate is answered ACK
again; for a HELD entry it is answered NAK; a kind the client does not take is answered NAK and one it discards ACK, and counted so;
one for a block is answered NAK BUSY with no chain, and otherwise noted as a receipt, counted as taken, answered ACK and handed
over; and one for a star node is placed on the port its decode named (log entry 22) and answered ACK, when that is UP with room, and
NAK BUSY otherwise. An entry neither BOUND nor HELD is dispatched by its index (log entry 19). A flooded frame that equals a record
waiting in the other side's queue is a repeat, and any other is placed there or counted so (R93). A trunk broadcast that is not a
junction frame for the Alias Unit (R96): a repeat goes nowhere; any other is entered, and one that is no DATAGRAM goes to the other
side when that is JOINED with room, and is counted as not placed when its queue is full; a DATAGRAM, with the other side not JOINED
and one port alone UP, goes out on that port; and of two places the first, the side or else the lower port, takes the frame's own
chain and the second a copy charged to the frame's tag, lost and counted when the pool refuses it (R97; a chain of one block). A
frame from a reserved source is counted under its decode and as such, its chain released, and nothing else is done: it teaches
nothing and is not answered (R70, R89). -/
def Obligations.RelayedFrameIsPlacedAndAnswered : Prop :=
  (
    ∀ (e : Moment) (x : Side) (s : State) (bytes : List Byte) (r : Reception) (c : Chain) (h : TrunkHeader) (src : DirRecord),
      let f := (s.arrive e).feed x bytes
      let y := otherSide x
      f.Calm → f.admin.device = .run → (f.unit x).rx = some r → r.mode = .full → r.jabber = false → r.settles = false →
      r.duplicate = false → classifyTrunk r.bytes = .good → trunkHeaderOf r.bytes = some h → r.decode = some (.relay y h.dest) →
      r.chain = some c → directed h.kind h.dest = true → (kindOf h.kind).isAnswer = false → (kindOf h.kind).isLending = false →
      (f.side x).state = .joined → (f.side y).state = .joined → (f.unit y).queue.length < 32 →
      (f.transmissions.any (fun t => (t.src == h.src) && (t.seq == h.seq) && (t.kind == h.kind))) = false →
      h.src ≠ 0 → h.src ≠ 255 → f.cfg.isReserved h.src = false → f.cfg.isLending h.src = false →
      f.dir h.src = some src → src.side = some x →
      let record : TrunkRecord :=
        { head := c.first, blocks := c.count, form := .trunk, asStored := true, length := trunkFrameLength h.len.toNat,
          payload := h.len.toNat, dest := h.dest,
          src := h.src, kind := h.kind, seq := h.seq, origin := .side x, cls := .ordinary, proxyAcked := true, collisions := 0,
          ackMisses := 0, busyCount := 0, begun := false, phase := .due }
      exec (.burstEnd e x bytes) s = .next
        { ((f.modUnit x (fun u =>
            { u with
              rx := none, staging := none, idleSince := some f.now, quiet := false
              reservedUntil := (match u.staging with
                | some g => if directed g.kind g.dest then f.now + 64 * Config.us else u.reservedUntil
                | none => u.reservedUntil)
              heardUntil := f.now + 64 * Config.us
              totals := u.totals.set 0 (bump u.totals[0])
              answer := some ⟨h.src, h.dest, h.seq, none⟩ })).modUnit y (fun u => { u with queue := u.queue ++ [record] })) with
          pool := { f.pool with records := f.pool.records.set c.last { f.pool.records[c.last] with endMark := true } }
          directory := { f.directory with records := f.directory.records.set h.src.toNat (some { src with lastHeard := f.now }) h.src.isLt }
          engine := { f.engine with
            decodes := f.engine.decodes.set 6 (bump f.engine.decodes[6])
            proxy := { f.engine.proxy with acked := f.engine.proxy.acked + 1, queued := f.engine.proxy.queued + 1 } } }
  ) ∧
  (
    ∀ (s : State) (f : TrunkFrame), f.echo = false → f.chain = none → s.cfg.isReserved f.header.src = false →
      f.directed = true →
      let counted := fun (k : Fin 12) => s.modEngine (fun q => { q with decodes := q.decodes.set k (bump q.decodes[k]) })
      (f.decode = .filter → s.endTrunk f = counted 5) ∧ (f.decode = .quarantine → s.endTrunk f = counted 2) ∧
      (f.decode = .malformed → s.endTrunk f = counted 0) ∧ (f.decode = .reserved → s.endTrunk f = counted 1) ∧
      (f.decode = .noPath → s.endTrunk f = counted 9) ∧
      (f.decode = .unreachable → s.endTrunk f = (counted 7).modUnit f.side (fun u =>
        { u with answer := some ⟨f.header.src, f.header.dest, f.header.seq, some 3⟩ })) ∧
      (∀ y n, f.decode = .relay y n → s.endTrunk f = (counted 6).modUnit f.side (fun u =>
        { u with answer := some ⟨f.header.src, f.header.dest, f.header.seq, some 1⟩ }))
  ) ∧
  (
    ∀ (s : State) (f : TrunkFrame) (i : EntryNo) (loc : Option PortId), s.check.bad = [] → s.pool.recovering = false →
      f.echo = false → s.cfg.isReserved f.header.src = false → f.directed = true → f.decode = .entry i loc →
      let answered := fun (k : Option Byte) (t : State) => t.modUnit f.side (fun u =>
        { u with answer := some ⟨f.header.src, f.header.dest, f.header.seq, k⟩ })
      let receipt : Receipt := ⟨f.header.src, f.header.dest, f.header.seq⟩
      let others := s.receipts.filter (· != receipt)
      let noted := fun (t : State) =>
        ({ t with receipts := (if others.length < 16 then others else others.drop 1) ++ [receipt] } : State)
      let taken := fun (t : State) => t.modEngine (fun q =>
        { q with proxy := { q.proxy with acked := q.proxy.acked + 1, delivered := q.proxy.delivered + 1 } })
      let counted := s.raiseDecode .lent
      let take := taking (clientKindOf i) (kindOf f.header.kind)
      (f.duplicate = true → f.chain = none → s.endTrunk f = answered none ((noted counted).raiseDrop .reAcks)) ∧
      (f.duplicate = false → s.isHeld i = true →
        s.endTrunk f = answered (some 2) ((counted.releaseChain f.chain).raiseDrop .held)) ∧
      (f.duplicate = false → s.isHeld i = false →
        (take = .refused → s.endTrunk f = answered (some 2) (counted.releaseChain f.chain)) ∧
        (take = .discarded →
          s.endTrunk f = answered none (noted (taken ((counted.releaseChain f.chain).raiseDrop .localDiscard)))) ∧
        (take = .toBlock ∨ take = .delivered → f.chain = none → s.endTrunk f = answered (some 1) counted) ∧
        (∀ c, take = .toBlock → f.chain = some c → s.endTrunk f = (answered none (noted (taken counted))).toBlock f c i) ∧
        (∀ c k at_ ident r, take = .delivered → f.chain = some c → loc = some k → s.dir f.header.dest = some r →
          r.holder = .own at_ ident i →
          let record : StarRecord :=
            { head := c.first, blocks := c.count, form := .trunk, asStored := false, length := starFrameLength f.header.len.toNat,
              payload := f.header.len.toNat, dest := ident
              src := ((s.dir f.header.src).bind (fun r => r.ident)).getD (s.cfg.trunkPrefix ++ f.header.src)
              kind := f.header.kind, seq := f.header.seq, origin := .side f.side, cls := .ordinary, proxyAcked := true, collisions := 0,
              ackMisses := 0, busyCount := 0, begun := false, phase := .due }
          let room := (s.port k).state = .up ∧ (s.port k).queue.length < 16
          (room → s.endTrunk f = answered none (noted ((counted.modPort k (fun q => { q with queue := q.queue ++ [record] })).modEngine
            (fun q => { q with proxy := { q.proxy with acked := q.proxy.acked + 1, queued := q.proxy.queued + 1 } })))) ∧
          (¬ room → s.endTrunk f = answered (some 1) (counted.releaseFrom c.first))))
  ) ∧
  (
    ∀ (s : State) (f : TrunkFrame) (c : Chain), s.check.bad = [] → s.pool.recovering = false → f.echo = false →
      s.cfg.isReserved f.header.src = false → f.chain = some c →
      let y := otherSide f.side
      let record : TrunkRecord :=
        { head := c.first, blocks := c.count, form := .trunk, asStored := true, length := trunkFrameLength f.header.len.toNat,
          payload := f.header.len.toNat, dest := f.header.dest, src := f.header.src, kind := f.header.kind, seq := f.header.seq
          origin := .side f.side, cls := .ordinary, proxyAcked := false, collisions := 0, ackMisses := 0, busyCount := 0
          begun := false, phase := .due }
      let room := (s.side y).state = .joined ∧ (s.unit y).queue.length < 32
      let queued := fun (t : State) => t.modUnit y (fun u => { u with queue := u.queue ++ [record] })
      (∀ n, f.decode = .flood n →
        let waits := ∃ r ∈ (s.unit y).queue, r.origin = .side f.side ∧ r.dest = f.header.dest ∧ r.src = f.header.src ∧
          r.seq = f.header.seq ∧ r.kind = f.header.kind
        let counted := s.raiseDecode .flood
        (waits → s.endTrunk f = (counted.raiseDrop .floodRepeat).releaseFrom c.first) ∧
        (¬ waits → room → s.endTrunk f = queued counted) ∧
        (¬ waits → ¬ room → s.endTrunk f = (counted.raiseDrop .placement).releaseFrom c.first)) ∧
      (f.decode = .broadcast → (kindOf f.header.kind).isLending = false ∨ s.admin.device ≠ .run →
        let repeated := ∃ b ∈ s.engine.broadcasts, b.src = f.header.src ∧ b.seq = f.header.seq ∧ b.kind = f.header.kind
        let counted := s.raiseDecode .broadcast
        let entered := counted.enterBroadcast f.header.src f.header.seq f.header.kind
        (repeated → s.endTrunk f = (counted.raiseDrop .repeated).releaseFrom c.first) ∧
        (¬ repeated → kindOf f.header.kind ≠ .datagram →
          (room → s.endTrunk f = queued entered) ∧
          ((s.side y).state ≠ .joined → s.endTrunk f = entered.releaseFrom c.first) ∧
          ((s.side y).state = .joined → 32 ≤ (s.unit y).queue.length →
            s.endTrunk f = (entered.raiseDrop .placement).releaseFrom c.first)) ∧
        (¬ repeated → kindOf f.header.kind = .datagram →
          let starRecord : StarRecord :=
            { head := c.first, blocks := c.count, form := .trunk, asStored := false, length := starFrameLength f.header.len.toNat,
              payload := f.header.len.toNat, dest := 0xFFFFFFFFFFFF#48
              src := ((s.dir f.header.src).bind (fun r => r.ident)).getD (s.cfg.trunkPrefix ++ f.header.src)
              kind := f.header.kind, seq := f.header.seq, origin := .side f.side, cls := .ordinary, proxyAcked := false,
              collisions := 0, ackMisses := 0, busyCount := 0, begun := false, phase := .due }
          let cast := fun (p : PortId) (r : StarRecord) (t : State) => t.modPort p (fun q => { q with queue := q.queue ++ [r] })
          let open_ := fun p => (s.port p).state = PortState.up ∧ (s.port p).queue.length < 16
          let copied := fun (p : PortId) (first : State) =>
            (∀ k, s.Refuses c.count (.side f.side) k → s.endTrunk f = (first.raisePool k).raiseDrop .copy) ∧
            (∀ b₀ b, c = ⟨b₀, b₀, 1⟩ → s.pool.records[b₀].next = none → b ≠ b₀ → Memory.wf s.memory = true →
              s.Grants (.side f.side) b →
              ∃ mem, s.endTrunk f =
                  { (cast p { starRecord with head := b } first) with
                    pool := { s.pool.taken b (.side f.side) with
                      records := s.pool.records.set b ⟨.forwarding, none, true, some (.ingress (.side f.side))⟩ }
                    memory := mem } ∧
                Written b 0 (s.loadChain [b₀] 0 128) s.memory mem)
          (∀ p, (s.side y).state ≠ .joined → open_ p → (∀ q, q ≠ p → (s.port q).state ≠ .up) →
            s.endTrunk f = cast p starRecord entered) ∧
          (∀ p, room → open_ p → (∀ q, q ≠ p → (s.port q).state ≠ .up) → copied p (queued entered)) ∧
          (∀ p q, (s.side y).state ≠ .joined → p < q → open_ p → open_ q → (∀ o, o ≠ p → o ≠ q → (s.port o).state ≠ .up) →
            copied q (cast p starRecord entered))))
  ) ∧
  (
    (∀ (e : Moment) (x : Side) (s : State) (bytes : List Byte) (r : Reception) (h : TrunkHeader) (d : Decode),
      let f := (s.arrive e).feed x bytes
      f.Calm → (f.unit x).rx = some r → r.mode = .full → r.jabber = false → r.settles = false →
      classifyTrunk r.bytes = .good → trunkHeaderOf r.bytes = some h → r.decode = some d → r.chain = none →
      (kindOf h.kind).isAnswer = false → (f.side x).state = .joined →
      (f.transmissions.any (fun t => (t.src == h.src) && (t.seq == h.seq) && (t.kind == h.kind))) = false →
      f.cfg.isReserved h.src = true →
      exec (.burstEnd e x bytes) s = .next
        (((f.modUnit x (fun u =>
          { u with
            rx := none, staging := none, idleSince := some f.now, quiet := false
            reservedUntil := (match u.staging with
              | some g => if directed g.kind g.dest then f.now + 64 * Config.us else u.reservedUntil
              | none => u.reservedUntil)
            heardUntil := if directed h.kind h.dest then f.now + 64 * Config.us else u.heardUntil
            totals := u.totals.set 0 (bump u.totals[0]) })).raiseDecode d.count).raiseDrop .reservedSource)) ∧
    (∀ (s : State) (f : TrunkFrame), f.echo = false → s.cfg.isReserved f.header.src = true →
      s.endTrunk f = ((s.raiseDecode f.decode.count).raiseDrop .reservedSource).releaseChain f.chain)
  )

/-! ### Trunk Access -/

/-- The GOOD ACK or NAK that begins in the head record's ack window and matches its numbers settles the record (R23, R24): an ACK
delivers it; a NAK BUSY counts and makes it wait 16 slots from the NAK's end, and the sixth ends it BUSY-LIMIT; any other NAK ends
it REFUSED. The answer's source is known where it is heard, and the directory hears it again, as it does the source of every GOOD
frame. A GOOD ACK or NAK that is not the record's answer, and any other GOOD frame that began in the window, is an ack miss (R25): it
counts in the record, in Am and in the total, and the fourth ends the record ACK-LIMIT. On a PARTITIONING side (R38) an ACK ends the
record DELIVERED, and a NAK of any reason and an ack miss end it FLUSHED, with no further attempt; the side is then PARTITIONED in the
same event, as ScoreCutsAndRestoresTheSide says of `settleSide`. -/
def Obligations.AnswerSettlesTheHeadRecord : Prop :=
  (
    ∀ (e : Moment) (x : Side) (s : State) (bytes : List Byte) (r : Reception) (h : TrunkHeader) (q : TrunkRecord)
      (rest : List TrunkRecord) (opened : Time) (src : DirRecord), let f := (s.arrive e).feed x bytes
      let learned := fun (t : State) => ({ t with directory := { t.directory with
        records := t.directory.records.set h.src.toNat (some { src with lastHeard := f.now }) h.src.isLt } } : State)
      let ended := f.modUnit x (fun u =>
        { u with
          rx := none, staging := none, idleSince := some f.now, quiet := false
          reservedUntil := (match u.staging with
            | some g => if directed g.kind g.dest then f.now + 64 * Config.us else u.reservedUntil
            | none => u.reservedUntil)
          totals := u.totals.set 0 (bump u.totals[0]) })
      let settled := fun (o : TxOutcome) (q' : TrunkRecord) (t : State) =>
        (learned (((t.modUnit x (fun u => { u with queue := rest })).countOutcome q' o).releaseFrom q.head)).releaseChain r.chain
      let waits := fun (q' : TrunkRecord) (t : State) =>
        (learned (t.modUnit x (fun u => { u with queue := q' :: rest }))).releaseChain r.chain
      let busy : TrunkRecord := { q with busyCount := q.busyCount + 1, phase := .busy (f.now + 1024 * Config.us) }
      let missed : TrunkRecord := { q with ackMisses := q.ackMisses + 1, phase := .missed }
      let counted := ended.modUnit x (fun u =>
        { u with window := { u.window with am := bump u.window.am }, totals := u.totals.set 10 (bump u.totals[10]) })
      let matching := h.dest = q.src ∧ h.src = q.dest ∧ h.seq = q.seq
      f.Sound → f.admin.device = .run → (f.unit x).rx = some r → r.mode = .full → r.jabber = false →
      r.settles = true → classifyTrunk r.bytes = .good → trunkHeaderOf r.bytes = some h → (f.unit x).queue = q :: rest →
      q.phase = .awaiting opened true → h.src ≠ 0 → h.src ≠ 255 → f.cfg.isReserved h.src = false → f.cfg.isLending h.src = false →
      f.dir h.src = some src → src.side = some x →
      ((f.side x).state = .joined →
        (h.kind = 3 → matching → exec (.burstEnd e x bytes) s = .next (settled .delivered q ended)) ∧
        (h.kind = 4 → matching → h.len = 1 → r.bytes.getD 6 0 = 1 →
          (q.busyCount < 5 → exec (.burstEnd e x bytes) s = .next (waits busy ended)) ∧
          (q.busyCount = 5 → exec (.burstEnd e x bytes) s = .next (settled .busyLimit busy ended))) ∧
        (h.kind = 4 → matching → (h.len ≠ 1 ∨ r.bytes.getD 6 0 ≠ 1) →
          exec (.burstEnd e x bytes) s = .next (settled .refused q ended)) ∧
        (h.kind = 3 ∨ h.kind = 4 → ¬ matching →
          (q.ackMisses < 3 → exec (.burstEnd e x bytes) s = .next (waits missed counted)) ∧
          (3 ≤ q.ackMisses → exec (.burstEnd e x bytes) s = .next (settled .ackLimit missed counted)))) ∧
      ((f.side x).state = .partitioning →
        (h.kind = 3 → matching → exec (.burstEnd e x bytes) s = .next ((settled .delivered q ended).settleSide x)) ∧
        (h.kind = 4 → matching → exec (.burstEnd e x bytes) s = .next ((settled .flushed q ended).settleSide x)) ∧
        (h.kind = 3 ∨ h.kind = 4 → ¬ matching →
          exec (.burstEnd e x bytes) s = .next ((settled .flushed missed counted).settleSide x)))
  ) ∧
  (
    ∀ (s : State) (x : Side) (h : TrunkHeader) (bytes : List Byte) (q : TrunkRecord) (rest : List TrunkRecord) (opened : Time),
      let missed : TrunkRecord := { q with ackMisses := q.ackMisses + 1, phase := .missed }
      let counted := fun (left : List TrunkRecord) => s.modUnit x (fun u =>
        { u with
          queue := left, window := { u.window with am := bump u.window.am }, totals := u.totals.set 10 (bump u.totals[10]) })
      s.check.bad = [] → s.pool.recovering = false → (s.unit x).queue = q :: rest →
      q.phase = .awaiting opened true → (kindOf h.kind).isAnswer = false →
      ((s.side x).state ≠ .partitioning → q.ackMisses < 3 → s.settleAttempt x (some h) bytes = counted (missed :: rest)) ∧
      ((s.side x).state ≠ .partitioning → 3 ≤ q.ackMisses →
        s.settleAttempt x (some h) bytes = ((counted rest).countOutcome missed .ackLimit).releaseFrom q.head) ∧
      ((s.side x).state = .partitioning →
        s.settleAttempt x (some h) bytes = ((counted rest).countOutcome missed .flushed).releaseFrom q.head)
  )

/-- The end of the quiet gap of 32 µs (R19, R28): a decided answer begins, 16 bytes with the numbers and sequence it was given and a
fresh check; with none decided the line is quiet, and nothing else moves, whatever records wait in the queue. Only a head record whose
backoff is due moves besides, with an answer decided or with none: it begins its wait, or is due at once after 0 slots (R21, R22).
Before the 32 µs, and while
the line is not free (the unit sending, a burst under way, the line quiet already or another station's carrier on it), nothing
happens. An answer is sent whole 64 µs after it began, and a jam ends 16 µs after it began: the unit falls silent and the quiet gap
begins, at once or, with another station's carrier still on the line, when that ends (log entry 54); the ACK or NAK is counted.
Before those times they go on (R21, R28). -/
def Obligations.AnswersGoOutAfterTheQuietGap : Prop :=
  (
    ∀ (e : Moment) (x : Side) (s : State) (t : Time), let a := s.arrive e
      let u := a.unit x
      u.sending = .silent → u.rx = none → u.quiet = false → u.idleSince = some t →
      (t + 32 * Config.us ≤ a.now → (∀ r rest b, u.queue = r :: rest → r.phase ≠ .backoffDue b) → u.answer = none →
        exec (.quietGapEnd e x) s = .next (a.modUnit x (fun u => { u with quiet := true }))) ∧
      (∀ w, t + 32 * Config.us ≤ a.now → (∀ r rest b, u.queue = r :: rest → r.phase ≠ .backoffDue b) → u.answer = some w →
        exec (.quietGapEnd e x) s = .next (a.modUnit x (fun u =>
          { u with
            answer := none, idleSince := none, quiet := false
            sending := .answer w.nak.isNone a.now
            lineOut := (match w.nak with
              | none => trunkFrame ⟨w.dest, w.src, 3, w.seq, 0⟩ []
              | some k => trunkFrame ⟨w.dest, w.src, 4, w.seq, 1⟩ [k]) }))) ∧
      (∀ r rest b, t + 32 * Config.us ≤ a.now → u.answer = none → u.queue = r :: rest → r.phase = .backoffDue b →
        exec (.quietGapEnd e x) s = .next (a.modUnit x (fun u =>
          { u with
            quiet := true
            queue := { r with phase := if b = 0 then .due else .backoff (a.now + b * (64 * Config.us)) } :: rest }))) ∧
      (∀ r rest b w, t + 32 * Config.us ≤ a.now → u.answer = some w → u.queue = r :: rest → r.phase = .backoffDue b →
        exec (.quietGapEnd e x) s = .next (a.modUnit x (fun u =>
          { u with
            queue := { r with phase := if b = 0 then .due else .backoff (a.now + b * (64 * Config.us)) } :: rest
            answer := none, idleSince := none, quiet := false
            sending := .answer w.nak.isNone a.now
            lineOut := (match w.nak with
              | none => trunkFrame ⟨w.dest, w.src, 3, w.seq, 0⟩ []
              | some k => trunkFrame ⟨w.dest, w.src, 4, w.seq, 1⟩ [k]) }))) ∧
      (a.now < t + 32 * Config.us → exec (.quietGapEnd e x) s = .next a)
  ) ∧
  (
    ∀ (e : Moment) (x : Side) (s : State), let a := s.arrive e
      let u := a.unit x
      u.sending ≠ .silent ∨ u.rx ≠ none ∨ u.quiet = true ∨ u.idleSince = none → exec (.quietGapEnd e x) s = .next a
  ) ∧
  (
    (∀ (e : Moment) (x : Side) (s : State) (isAck : Bool) (began : Time), let a := s.arrive e
      (a.unit x).sending = .answer isAck began →
      (began + 64 * Config.us ≤ a.now →
        exec (.answerEnd e x) s = .next (a.modUnit x (fun u =>
          { u with
            sending := .silent, idleSince := if u.otherCarrier then none else some a.now, quiet := false
            totals := if isAck then u.totals.set 11 (bump u.totals[11]) else u.totals.set 12 (bump u.totals[12]) }))) ∧
      (a.now < began + 64 * Config.us → exec (.answerEnd e x) s = .next a)) ∧
    (∀ (e : Moment) (x : Side) (s : State) (began : Time), let a := s.arrive e
      a.Resting → (a.unit x).sending = .jam began → (a.unit x).flushesAfterJam = false →
      (began + 16 * Config.us ≤ a.now →
        exec (.jamEnd e x) s = .next (a.modUnit x (fun u =>
          { u with sending := .silent, idleSince := if u.otherCarrier then none else some a.now, quiet := false }))) ∧
      (a.now < began + 16 * Config.us → exec (.jamEnd e x) s = .next a))
  )

/-- An attempt begins when, and only when, the conditions of R19 hold: the device loads no longer, the side is JOINED, the unit is
silent with no burst under way and a quiet gap passed, no answer waits, the line is not reserved, and the head record is due. It
puts the whole frame on the line, read from the chain in order: the bytes as stored, check and all, for a frame relayed unchanged,
and a fresh frame from the record's fields and the stored payload for any other; and it counts one attempt (R20). -/
def Obligations.AttemptBeginsOnlyWhenTheLineIsFree : Prop :=
  ∀ (e : Moment) (x : Side) (s : State) (r : TrunkRecord) (rest : List TrunkRecord), let a := s.arrive e
    let u := a.unit x
    let blocks := chainBlocks a.pool.records 256 r.head
    let free := a.admin.device ≠ .loading ∧ (a.side x).state = .joined ∧ u.sending = .silent ∧ u.rx = none ∧ u.quiet = true ∧
      u.answer = none ∧ u.reservedUntil ≤ a.now ∧ (r.phase = .due ∨ (r.phase = .missed ∧ u.ownWindowUntil ≤ a.now))
    let line :=
      if r.asStored then a.loadChain blocks 0 r.length
      else trunkFrame ⟨r.dest, r.src, r.kind, r.seq, BitVec.ofNat 16 r.payload⟩ (a.loadChain blocks (headerBytes r.form) r.payload)
    a.Calm → u.queue = r :: rest →
    (free → exec (.attemptBegin e x) s = .next (a.modUnit x (fun u =>
      { u with
        queue := { r with begun := true, phase := .sending } :: rest
        sending := .attempt a.now, lineOut := line, idleSince := none, quiet := false
        window := { u.window with tx := bump u.window.tx }
        totals := u.totals.set 7 (bump u.totals[7]) }))) ∧
    (¬ free → exec (.attemptBegin e x) s = .next a)

/-- An attempt is sent whole when its last bit is out: a directed frame opens its ack window of 64 µs, and an unacknowledged one
completes DELIVERED. The line is idle from then on, or, with another station's carrier on it, when that ends (log entry 54). A
record that did not come from a trunk side stands afterwards as the youngest of the recent transmissions, once, with this side; one
relayed from a side makes no entry (R20, R23, R34). On a PARTITIONING side the directed frame opens its window no less, and the
unacknowledged one ends the attempt in flight, so that the side is PARTITIONED in the same event, as ScoreCutsAndRestoresTheSide says of
`settleSide` (R38). -/
def Obligations.AttemptSentWholeOpensItsWindowOrDelivers : Prop :=
  ∀ (e : Moment) (x : Side) (s : State) (r : TrunkRecord) (rest : List TrunkRecord) (began : Time), let a := s.arrive e
    let same := fun (t : Transmission) => (t.src == r.src) && (t.seq == r.seq) && (t.kind == r.kind)
    let others := a.transmissions.filter (fun t => !same t)
    let list :=
      if r.origin = .side .west ∨ r.origin = .side .east then a.transmissions
      else (if others.length < 16 then others else others.drop 1) ++ [⟨r.src, r.seq, r.kind, x⟩]
    a.Sound → (a.unit x).sending = .attempt began → (a.unit x).queue = r :: rest →
    began + 40 * (a.unit x).lineOut.length ≤ a.now →
    (directed r.kind r.dest = true →
      exec (.attemptSentWhole e x) s = .next
        { (a.modUnit x (fun u =>
          { u with
            queue := { r with phase := .awaiting a.now false } :: rest
            sending := .silent, idleSince := if u.otherCarrier then none else some a.now, quiet := false
            ownWindowUntil := a.now + 64 * Config.us })) with
          transmissions := list }) ∧
    (directed r.kind r.dest = false →
      let delivered := (({ (a.modUnit x (fun u =>
            { u with
              queue := rest, sending := .silent, idleSince := if u.otherCarrier then none else some a.now, quiet := false })) with
          transmissions := list } : State).countOutcome r .delivered).releaseFrom r.head
      ((a.side x).state ≠ .partitioning → exec (.attemptSentWhole e x) s = .next delivered) ∧
      ((a.side x).state = .partitioning → exec (.attemptSentWhole e x) s = .next (delivered.settleSide x)))

/-- A collision with an attempt turns the unit to its jam and counts one in the record, in C, in Co and in the total, and in Lc and
the late total when 16 bytes or more had gone out, which is the model's reading of a late collision (log entry 45); the twelfth ends
the record COLLISION-LIMIT, and before that its backoff wait is worked out (R21). A collision with an answer ends the answer with a
jam and counts an answer collision alone (R28). One with the inverted check of an attempt cut short stops the check, turns to a jam,
and is counted in C, Co, the total and, if 16 frame bytes or more had gone out, as late (R27; log entries 45 and 55). On a PARTITIONING
side (R38) a collision with the attempt in flight counts no less, and its record, whatever its collisions, waits for no backoff: it
stays at the head until the jam has ended, and then completes FLUSHED. A jam ends 16 µs after it began, and not before; when that
ended the attempt in flight of a PARTITIONING side, be it the jam of a collision with the attempt or with its inverted check (log entry
78), the side is PARTITIONED in the same event, as ScoreCutsAndRestoresTheSide says of `settleSide`. -/
def Obligations.CollisionTurnsToTheJam : Prop :=
  (∀ (e : Moment) (x : Side) (s : State), let a := s.arrive e
    let counted := fun (late : Bool) (u : TrunkUnit) =>
      let t := u.totals.set 8 (bump u.totals[8])
      { u with
        c := u.c + 1
        window := { u.window with co := bump u.window.co, lc := if late then bump u.window.lc else u.window.lc }
        totals := if late then t.set 9 (bump t[9]) else t }
    a.Sound →
    (∀ r rest began, (a.unit x).sending = .attempt began → (a.unit x).queue = r :: rest →
      let sent := (a.now - began) / 40
      let late := decide (16 ≤ sent)
      let n := r.collisions + 1
      let jammed := fun (u : TrunkUnit) => { counted late u with sending := .jam a.now, lineOut := u.lineOut.take sent }
      ((a.side x).state ≠ .partitioning → n < 12 → exec (.collision e x) s = .next (a.modUnit x (fun u =>
        { jammed u with
          queue := { r with
            collisions := n
            phase := .backoffDue (backoffSlots ((a.boundNumber 0).getD 0).toNat n ((a.unit x).c + 1).toNat) } :: rest }))) ∧
      ((a.side x).state ≠ .partitioning → 12 ≤ n → exec (.collision e x) s = .next
        (((a.modUnit x (fun u => { jammed u with queue := rest })).countOutcome r .collisionLimit).releaseFrom r.head)) ∧
      ((a.side x).state = .partitioning → exec (.collision e x) s = .next (a.modUnit x (fun u =>
        { jammed u with queue := { r with collisions := n, phase := .flushAfterJam } :: rest })))) ∧
    (∀ isAck began, (a.unit x).sending = .answer isAck began →
      exec (.collision e x) s = .next (a.modUnit x (fun u =>
        { u with
          sending := .jam a.now, lineOut := u.lineOut.take ((a.now - began) / 40)
          totals := u.totals.set 13 (bump u.totals[13]) }))) ∧
    (∀ sent ends, (a.unit x).sending = .cutCheck sent ends →
      exec (.collision e x) s = .next (a.modUnit x (fun u =>
        { counted (decide (16 ≤ sent)) u with
          sending := .cutJam a.now, lineOut := u.lineOut.take (sent + (a.now - (ends - 80)) / 40) })))) ∧
  (∀ (e : Moment) (x : Side) (s : State) (began : Time), let a := s.arrive e
    let silent := fun (left : List TrunkRecord) => a.modUnit x (fun u =>
      { u with queue := left, sending := .silent, idleSince := if u.otherCarrier then none else some a.now, quiet := false })
    a.Sound →
    (∀ r rest, (a.unit x).sending = .jam began → (a.unit x).queue = r :: rest → r.phase = .flushAfterJam →
      began + 16 * Config.us ≤ a.now →
      exec (.jamEnd e x) s = .next ((((silent rest).countOutcome r .flushed).releaseFrom r.head).settleSide x)) ∧
    ((a.unit x).sending = .cutJam began → (a.unit x).flushesAfterJam = false → began + 16 * Config.us ≤ a.now →
      exec (.jamEnd e x) s = .next ((silent (a.unit x).queue).settleSide x)) ∧
    ((a.unit x).sending = .jam began ∨ (a.unit x).sending = .cutJam began → a.now < began + 16 * Config.us →
      exec (.jamEnd e x) s = .next a))

/-- The backoff wait: W is 4, 8, 16, then 32 for every collision from the fourth on, and B is (5S + 3n + C) modulo W, always below
W. S is the junction's own number while its entry is BOUND, and 0 otherwise; in RELAY-ONLY, whose table is empty, it is 0. A wait of
0 slots makes the record due at the end of the quiet gap after the jam. -/
def Obligations.BackoffWaitIsTheFormula : Prop :=
  (∀ n, backoffWindow n = 2 ^ min (n + 1) 5) ∧ backoffWindow 1 = 4 ∧ backoffWindow 2 = 8 ∧ backoffWindow 3 = 16 ∧
  (∀ n, 4 ≤ n → backoffWindow n = 32) ∧
  (∀ S n C, backoffSlots S n C = (5 * S + 3 * n + C) % backoffWindow n ∧ backoffSlots S n C < backoffWindow n) ∧
  (∀ (s : State) (m : Byte) (c : AliasEntry), s.entry 0 = some c → c.phase = .bound m → s.backoffNumber = m.toNat) ∧
  (∀ s : State, (∀ c m, s.entry 0 = some c → c.phase ≠ .bound m) → s.backoffNumber = 0) ∧
  (∀ s : State, s.enterRelayOnly.admin.device = .relayOnly ∧ s.enterRelayOnly.backoffNumber = 0) ∧
  (∀ s : State, s.admin.device = .relayOnly → (∀ i, s.entry i = none) → s.backoffNumber = 0) ∧
  (∀ (s : State) (x : Side) (r : TrunkRecord) (rest : List TrunkRecord) (began : Time),
    s.Calm → (s.unit x).queue = r :: rest → r.collisions < 11 →
    ((s.attemptCollides x r began).unit x).queue =
      { r with
        collisions := r.collisions + 1
        phase := .backoffDue (backoffSlots s.backoffNumber (r.collisions + 1) ((s.unit x).c + 1).toNat) } :: rest) ∧
  (∀ (r : TrunkRecord) (now : Time) (b : Nat), r.phase = .backoffDue b →
    r.beginBackoff now = { r with phase := if b = 0 then .due else .backoff (now + b * (64 * Config.us)) })

/-- A backoff wait and a busy wait end at their time, making the head record due, and not before. An ack window that ends with no
burst begun in it is an ack miss: it counts in the record, in Am and in the total; the fourth ends the record ACK-LIMIT, and before
that the record is due again with no backoff (R25). On a PARTITIONING side the miss ends the record FLUSHED with no further attempt, and
the side is PARTITIONED in the same event, as ScoreCutsAndRestoresTheSide says of `settleSide` (R38). -/
def Obligations.WaitsAndAckWindowsEndAtTheirTime : Prop :=
  (
    ∀ (e : Moment) (x : Side) (s : State) (r : TrunkRecord) (rest : List TrunkRecord) (t : Time), let a := s.arrive e
      (a.unit x).queue = r :: rest →
      (r.phase = .backoff t →
        exec (.backoffWaitEnd e x) s = .next
          (if t ≤ a.now then a.modUnit x (fun u => { u with queue := { r with phase := .due } :: rest }) else a)) ∧
      (r.phase = .busy t →
        exec (.busyWaitEnd e x) s = .next
          (if t ≤ a.now then a.modUnit x (fun u => { u with queue := { r with phase := .due } :: rest }) else a))
  ) ∧
  (
    ∀ (e : Moment) (x : Side) (s : State) (r : TrunkRecord) (rest : List TrunkRecord) (opened : Time), let a := s.arrive e
      let counted := fun (u : TrunkUnit) =>
        { u with window := { u.window with am := bump u.window.am }, totals := u.totals.set 10 (bump u.totals[10]) }
      a.Sound → (a.unit x).queue = r :: rest → r.phase = .awaiting opened false →
      ((a.side x).state ≠ .partitioning → opened + 64 * Config.us ≤ a.now → r.ackMisses < 3 →
        exec (.ackWindowEnd e x) s = .next (a.modUnit x (fun u =>
          { counted u with queue := { r with ackMisses := r.ackMisses + 1, phase := .missed } :: rest }))) ∧
      ((a.side x).state ≠ .partitioning → opened + 64 * Config.us ≤ a.now → 3 ≤ r.ackMisses →
        exec (.ackWindowEnd e x) s = .next
          (((a.modUnit x (fun u => { counted u with queue := rest })).countOutcome
            { r with ackMisses := r.ackMisses + 1, phase := .missed } .ackLimit).releaseFrom r.head)) ∧
      ((a.side x).state = .partitioning → opened + 64 * Config.us ≤ a.now →
        exec (.ackWindowEnd e x) s = .next
          ((((a.modUnit x (fun u => { counted u with queue := rest })).countOutcome
            { r with ackMisses := r.ackMisses + 1, phase := .missed } .flushed).releaseFrom r.head).settleSide x)) ∧
      (a.now < opened + 64 * Config.us → exec (.ackWindowEnd e x) s = .next a)
  )

/-- The outcome of a record is counted once; of a proxy-acked one the accounting goes on: one fewer in queues, and one more
delivered or lost. The sum of delivered, lost and queued frames is so kept equal to the frames proxy-acked (R26, R104). -/
def Obligations.OutcomesKeepTheProxyBalance : Prop :=
  ∀ (s : State) (r : TrunkRecord) (o : TxOutcome),
    let sum := fun (p : Proxy) => p.delivered + p.losses[0] + p.losses[1] + p.losses[2] + p.losses[3] + p.losses[4] + p.losses[5] +
      BitVec.ofNat 32 p.queued
    let t := s.countOutcome r o
    t = { s with engine := t.engine } ∧ t.engine.outcomes = s.engine.outcomes.set o.idx (bump s.engine.outcomes[o.idx]) ∧
    (r.proxyAcked = false → t.engine.proxy = s.engine.proxy) ∧
    (r.proxyAcked = true → 1 ≤ s.engine.proxy.queued →
      t.engine.proxy.queued + 1 = s.engine.proxy.queued ∧ t.engine.proxy.acked = s.engine.proxy.acked ∧
      sum t.engine.proxy = sum s.engine.proxy) ∧
    sum (s.countPlaced r).engine.proxy - (s.countPlaced r).engine.proxy.acked = sum s.engine.proxy - s.engine.proxy.acked ∧
    sum s.countTaken.engine.proxy - s.countTaken.engine.proxy.acked = sum s.engine.proxy - s.engine.proxy.acked

/-- An uncorrectable word that the sender reaches ends a trunk attempt and a star frame at once: the inverted check of the bytes
sent goes out, the error is latched for its consumer, the record is DAMAGED and its chain released with the block under test (R27,
R52, R171, R172); a PARTITIONING side stays so until the check has gone out (log entry 78). A directory record met so is rebuilt
from the alias entry that alone holds its number, heard now, and is absent where none does (R173). An alias entry met so, in RUN,
that no directory record names is freed, and entry 0 is UNBOUND afresh at the tail of the claim queue; with one record that names
entry 0 that number is given up first; in RELAY-ONLY the table is not read (R174). A roster entry met so is removed, and its records
and loop watch with it unless the word held the peer's identifier; which words do is a free value (log entry 9). A job record met
so, no block being tagged with its slot, becomes DAMAGED with reason MEMORY, off the print order, counted, with no notice (R175,
R148); its other fields are free values (log entry 10), and it was at the printer when its record was (log entry 66). One of the
words read for the next byte of the PRINTING job (log entry 74; two, log entry 91, are not spoken of) damages the job: the error is
latched, the job is DAMAGED with reason MEMORY, off the print order and counted, its chain released with the block under test, INIT
pulsed, no byte being in hand, and its originator told (R148); the spool change is spoken of with no job RECEIVING. One in a frame
handed to a block of the junction (log entries 33 and 34) discards it, its chain released with the block under test, and nothing
else is done, but that a lending broadcast is a repeat or entered as any; and one in a chain being copied gives up the copy,
counted, with no test (R172; a chain of one block). -/
def Obligations.UncorrectableWordDamagesTheRecord : Prop :=
  (∀ (e : Moment) (x : Side) (s : State) (r : TrunkRecord) (rest : List TrunkRecord) (began struck : Time) (loc : WordLoc)
    (syn : BitVec 7) (f : TestTarget) (i : Nat), let a := s.arrive e
    let w : BadWord := ⟨loc, .uncorrectable syn, struck⟩
    let sent := linePlace r 6 i
    a.Resting → a.pool.recovering = false → a.check.bad = [w] → a.check.capture = none →
    (a.unit x).sending = .attempt began → (a.unit x).queue = r :: rest →
    a.metBroken r 6 40 began = some (w, f, i) → began + 40 * sent ≤ a.now →
    exec (.trunkSendUncorrectable e x) s = .next
      (((({ (a.modUnit x (fun u =>
          { u with
            queue := rest
            sending := .cutCheck sent (a.now + 80)
            lineOut := u.lineOut.take sent ++ checkBytes16 (~~~(trunkCheck (u.lineOut.take sent))) })) with
        check := { a.check with capture := some ⟨loc, syn, .trunkSend⟩ } } : State).countOutcome r .damaged).needTest f).releaseFrom
          r.head)) ∧
  (∀ (e : Moment) (p : PortId) (s : State) (r : StarRecord) (rest : List StarRecord) (began struck : Time) (loc : WordLoc)
    (syn : BitVec 7) (f : TestTarget) (i : Nat), let a := s.arrive e
    let w : BadWord := ⟨loc, .uncorrectable syn, struck⟩
    let sent := linePlace r 16 i
    a.Resting → a.pool.recovering = false → a.check.bad = [w] → a.check.capture = none →
    (a.port p).sending = some began → (a.port p).queue = r :: rest →
    a.metBroken r 16 8 began = some (w, f, i) → began + 8 * sent ≤ a.now →
    exec (.starSendUncorrectable e p) s = .next
      (((({ (a.modPort p (fun q =>
          { q with
            queue := rest, sending := none, lastSent := some (a.now + 32)
            lineOut := q.lineOut.take sent ++ checkBytes32 (~~~(starCheck (q.lineOut.take sent)))
            totals := q.totals.set 12 (bump q.totals[12]) })) with
        check := { a.check with capture := some ⟨loc, syn, .starSend⟩ } } : State).countOutcome r .damaged).needTest f).releaseFrom
          r.head)) ∧
  (∀ (s : State) (n : Byte) (o struck : Nat) (syn : BitVec 7),
    let loc : WordLoc := ⟨.directory, n.toNat, o⟩
    let put := fun (r : Option DirRecord) =>
      ({ s with
        directory := { s.directory with records := s.directory.records.set n.toNat r n.isLt }
        check := { s.check with capture := some ⟨loc, syn, .directory⟩, bad := [] } } : State)
    s.check.bad = [⟨loc, .uncorrectable syn, struck⟩] → s.check.capture = none →
    (∀ i c, s.entry i = some c → c.phase.holds = some n → (∀ k d, s.entry k = some d → d.phase.holds = some n → k = i) →
      s.checkDir n = put (some ⟨.own (match c.client with | .starNode => c.port | _ => none) c.ident i, s.now, 0, none, none⟩)) ∧
    ((∀ i c, s.entry i = some c → c.phase.holds ≠ some n) → s.checkDir n = put none)) ∧
  (∀ (s : State) (i : EntryNo) (o struck : Nat) (syn : BitVec 7),
    let loc : WordLoc := ⟨.aliasTable, i.val, o⟩
    let t : State := { s with check := { s.check with capture := some ⟨loc, syn, .lending⟩, bad := [] } }
    let fresh := t.modLend (fun l =>
      { l with table := l.table.set 0 (some ⟨.junction, s.cfg.baseId.getD 0, none, .unbound, 0, 0, 0⟩) })
    s.check.bad = [⟨loc, .uncorrectable syn, struck⟩] → s.check.capture = none →
    (s.admin.device = .run →
      ((∀ n r at_ ident, s.dir n = some r → r.holder ≠ .own at_ ident i) →
        (2 ≤ i.val → s.checkEntry i = t.freeEntry i) ∧
        (i = 0 → 0 ∉ s.lend.claims → s.checkEntry i = fresh.modLend (fun l => { l with claims := l.claims ++ [0] }))) ∧
      (∀ n r at_ ident, i = 0 → 1 ≤ n.toNat → n.toNat ≤ 254 → s.dir n = some r → r.holder = .own at_ ident 0 →
        (∀ m q at' ident', s.dir m = some q → q.holder = .own at' ident' 0 → m = n) →
        s.checkEntry i = (fresh.relinquish n (s.cfg.baseId.getD 0) .remove).joinClaims 0)) ∧
    (s.admin.device ≠ .run → s.checkEntry i = s)) ∧
  (∀ (s : State) (j : RosterNo) (p : RosterEntry) (o struck : Nat) (syn : BitVec 7),
    let loc : WordLoc := ⟨.roster, j.val, o⟩
    let removed : State :=
      { s with
        lend := { s.lend with roster := s.lend.roster.set j none }
        check := { s.check with capture := some ⟨loc, syn, .roster⟩, bad := [] } }
    s.check.bad = [⟨loc, .uncorrectable syn, struck⟩] → s.check.capture = none → s.admin.device = .run → s.peer j = some p →
    (Config.rosterIdentWord o = true → s.checkPeer j = removed) ∧
    (Config.rosterIdentWord o = false → s.checkPeer j = removed.peerLeft p.ident)) ∧
  (∀ (s : State) (k : Slot) (j : Job) (o struck : Nat) (syn : BitVec 7),
    let loc : WordLoc := ⟨.jobRecords, k.val, o⟩
    s.check.bad = [⟨loc, .uncorrectable syn, struck⟩] → s.check.capture = none → s.admin.device = .run → s.pool.recovering = false →
    s.job k = some j → j.atPrinter = false → s.receivers.filter (· != k) = [] →
    (∀ b : BlockNo, s.pool.records[b].tag ≠ some (.slot k)) →
    ∃ d : Job, d.number = 0 ∧ d.originator = none ∧ d.state = .damaged ∧ d.reason = .memory ∧ d.window = 0 ∧ d.chain = none ∧
      d.finished = some s.now ∧
      s.checkJob k =
        { s with
          spool := { s.spool with
            jobs := s.spool.jobs.set k (some d), order := s.spool.order.filter (· != k)
            counters := s.spool.counters.set 11 (bump s.spool.counters[11]) }
          check := { s.check with capture := some ⟨loc, syn, .job⟩, bad := [] } }) ∧
  (∀ (e : Moment) (s : State) (k : Slot) (rest : List Slot) (j : Job) (c : JobChain) (bs : List BlockNo) (f : Form) (i o : Nat)
    (b : BlockNo) (struck : Time) (syn : BitVec 7), let a := s.arrive e
    let loc : WordLoc := ⟨.blockMemory, b.val, o⟩
    let hit : State := { a with check := { a.check with capture := some ⟨loc, syn, .print⟩ } }
    let told : List Notice := match j.originator with
      | some n => [⟨.number n, statusPayload [⟨j.number, 7, Reason.memory.code, j.nextIndex, 0, 0, j.copiesLeft⟩]⟩]
      | none => []
    a.Settled → a.pool.recovering = false → a.check.bad = [⟨loc, .uncorrectable syn, struck⟩] → a.check.capture = none →
    a.admin.device = .run → a.spool.order = k :: rest → a.job k = some j → j.state = .printing → j.chain = some c → a.receivers = [] →
    a.spool.inHand = none → a.spool.printer = .ready → a.spool.initPending = false → a.spool.initPulse = none →
    a.spool.separatorDue = false → a.locate (a.jobFrames j) j.printed = some (bs, f, i) → b ∈ bs → o < 32 →
    (chainWords bs (headerBytes f - 2) (headerBytes f) loc = true ∨ chainWords bs i (i + 1) loc = true) →
    exec (.bytePresent e) s = .next
      ((((hit.needTest ⟨b, o⟩).releaseFrom c.first).modSpool (fun p =>
        { p with
          jobs := p.jobs.set k (some
            { j with state := .damaged, reason := .memory, chain := none, window := 0, finished := some a.now })
          order := p.order.filter (· != k)
          counters := p.counters.set 11 (bump p.counters[11])
          separatorDue := false
          initPulse := some a.now
          outbox := told })).finish)) ∧
  (∀ (s : State) (b : BlockNo) (o struck : Nat) (syn : BitVec 7),
    let loc : WordLoc := ⟨.blockMemory, b.val, o⟩
    let lost := fun (c : Chain) (u : State) =>
      (({ u with check := { u.check with capture := some ⟨loc, syn, .localRead⟩ } } : State).needTest ⟨b, o⟩).releaseFrom c.first
    let reads := fun (c : Chain) (form : Form) (upto : Nat → Nat) =>
      chainWords (s.blocksOf c.first) 0 (upto (s.storedLength (s.blocksOf c.first) form)) loc = true
    s.check.bad = [⟨loc, .uncorrectable syn, struck⟩] → s.check.capture = none → s.pool.recovering = false → o < 32 →
    (∀ who form c, reads c form (fun n => headerBytes form + n) → s.inspectFrame who form c = lost c s) ∧
    (∀ who k src form c, reads c form (fun n => headerBytes form + if k = .printData then min n 3 else n) →
      s.printFrame who k src form c = lost c s) ∧
    (∀ f c, reads c .trunk (fun n => headerBytes .trunk + n) → s.aliasHandOff f c = lost c s) ∧
    (∀ (f : TrunkFrame) (c : Chain), reads c .trunk (fun n => headerBytes .trunk + n) → f.echo = false →
      s.cfg.isReserved f.header.src = false → f.decode = .broadcast → (kindOf f.header.kind).isLending = true →
      s.admin.device = .run → f.chain = some c →
      let repeated := ∃ e ∈ s.engine.broadcasts, e.src = f.header.src ∧ e.seq = f.header.seq ∧ e.kind = f.header.kind
      let left := lost c (s.raiseDecode .broadcast)
      (repeated → s.endTrunk f = left.raiseDrop .repeated) ∧
      (¬ repeated → s.endTrunk f = left.enterBroadcast f.header.src f.header.seq f.header.kind))) ∧
  (∀ (s : State) (b₀ b : BlockNo) (o struck : Nat) (syn : BitVec 7) (tag : Origin) (t : Placement) (n : Placed),
    let loc : WordLoc := ⟨.blockMemory, b₀.val, o⟩
    let taken : Pool :=
      { s.pool.taken b tag with records := s.pool.records.set b ⟨.forwarding, none, true, some (.ingress tag)⟩ }
    s.check.bad = [⟨loc, .uncorrectable syn, struck⟩] → s.check.capture = none → s.pool.recovering = false → o < 32 →
    s.pool.records[b₀].next = none → b ≠ b₀ → s.Grants tag b →
    State.placeAll ⟨b₀, b₀, 1⟩ tag [t] false n s =
      (({ s with
          check := { s.check with capture := some ⟨loc, syn, .copy⟩ }
          pool := (taken.leaveClass b).append b } : State).raiseDrop .copy, { n with refused := n.refused + 1 }))

/-- LINE-FAULT follows its pin; its assertion sets Lf in the side's window, unless the device is LOADING, and nothing else (R17,
R36). That one command carries the pin's rise and its fall is the model's choice (log entry 25). -/
def Obligations.LineFaultMarksTheWindow : Prop :=
  ∀ (e : Moment) (x : Side) (level : Bool) (s : State), let a := s.arrive e
    exec (.lineFault e x level) s = .next
      { a with
        pins := { a.pins with lineFault := Sides.set a.pins.lineFault x level }
        trunk := if level = true ∧ a.admin.device ≠ .loading then
            Sides.set a.trunk x { a.unit x with window := { (a.unit x).window with lf := true } } else a.trunk }

/-! ### Star Links -/

/-- Link presence makes a DOWN port UP (R42, R44): every node's last heard is set to that moment, every HELD entry of a node on the
port becomes BOUND, the staging is empty, and a frame begun before that moment is not received. On a port in any other state, and
while LOADING, the pin alone follows. The loss of link makes an UP port DOWN, whatever it sends, holds and receives (R43): nothing
more is sent of a frame under way, every record of its queue completes FLUSHED from head to tail, its chain released, a frame being
received is over, its blocks handed back and one more in the cut-frames total, one in its first bytes being counted when they are
reported (log entry 104), the entries of its nodes become HELD for the alias hold or, if they hold no number, are freed, and only
the nodes whose entries remain stay in the list. An ISOLATED port keeps its state, no more of a frame coming to it (log entry 47),
and so does one that is DOWN or DISABLED (R42). A port sends link signalling exactly while it is DOWN, UP or ISOLATED and the device
is LOADING no longer (R41, R42). -/
def Obligations.LinkPresenceMovesThePort : Prop :=
  (
    ∀ (e : Moment) (p : PortId) (s : State), let a := s.arrive e
      let pins := { a.pins with link := a.pins.link.set p true }
      a.Sound →
      (a.admin.device ≠ .loading → (a.port p).state = .down →
        ∃ t, exec (.linkPresent e p) s = .next t ∧
          t = { (a.modPort p (fun q =>
            { q with
              state := .up, staging := none, ignoreBefore := a.now
              nodes := q.nodes.map (fun n => { n with lastHeard := a.now })
              rx := q.rx.map (fun r => { r with mode := .ignored, chain := none }) })) with pins := pins, lend := t.lend } ∧
          t.lend = { a.lend with table := t.lend.table } ∧
          (∀ i c, a.entry i = some c →
            t.entry i = some (match c.phase with
              | .held n _ => if c.client = .starNode ∧ c.port = some p then { c with phase := .bound n } else c
              | _ => c)) ∧
          (∀ i, a.entry i = none → t.entry i = none)) ∧
      (a.admin.device = .loading ∨ (a.port p).state ≠ .down → exec (.linkPresent e p) s = .next { a with pins := pins })
  ) ∧
  (
    ∀ (e : Moment) (p : PortId) (s : State), let a := s.arrive e
      let pins := { a.pins with link := a.pins.link.set p false }
      a.Sound →
      ((a.port p).state = .up →
        ∃ t, exec (.linkLost e p) s = .next t ∧ ({ a with pins := pins } : State).Leaves t p false) ∧
      ((a.port p).state = .isolated →
        exec (.linkLost e p) s = .next (({ a with pins := pins } : State).modPort p (fun q => { q with rx := none, staging := none }))) ∧
      ((a.port p).state = .down ∨ (a.port p).state = .disabled → exec (.linkLost e p) s = .next { a with pins := pins })
  ) ∧
  (
    ∀ (s : State) (p : PortId), s.linkSignalling p = true ↔
      s.admin.device ≠ .loading ∧ ((s.port p).state = .down ∨ (s.port p).state = .up ∨ (s.port p).state = .isolated)
  )

/-- A GOOD frame from a node of an UP port to a node of another UP port is switched: the node's last heard is the frame's end, the
frame is counted, its chain, marked at its end, joins the other port's queue to go out as it is stored, and nothing else is done
(R46, R47, R100). A GOOD frame, from a node in its port's list or with a malformed source, that holds no chain at its end is counted
with the good frames, and as a broadcast where it is one, its node heard; one that was OVERRUN is not handed on, and nothing counts
its decode (R45, R50, R86); any other is counted under its decode and goes no further when it is decoded MALFORMED, RESERVED,
QUARANTINE, FILTER, UNREACHABLE, NO-PATH or UNRESOLVED; and an answer or a lending kind is counted as forbidden too, but for a
MALFORMED one (R88, R100). One that holds a chain is handed to the engine, its chain marked at its end, and what the engine does
with it ends the event. What the engine does with a star frame handed on with a chain (R98 to R101): an answer or a lending kind is
forbidden; a frame to the trunk whose node holds a number is placed on the side of its destination under that number and the
destination's, or counted as not placed; an unknown kind is forbidden and a payload over 512 bytes too large; a node that holds no
number goes no further, and is counted so; a FLOOD, and a broadcast that is no DATAGRAM, go to the one side JOINED with room, or to
both, WEST taking the chain and EAST a copy of it charged to the port, which side comes first being the model's choice (log entry
70), EAST being lost and counted when the pool refuses the copy (R97; of a chain of one block, where the copy is granted), the sides
being those JOINED at the frame's end (log entry 60), the broadcast entered among the recent ones or dropped as a repeat; a DATAGRAM
broadcast of a node without a number, counted so too, goes to the one other port that is UP; an INSPECT-REQ for the junction and a
print request for the printer, by identifier or by the number of entry 0 or 1, are handed to the unit, and what these do not take is
discarded and counted; and a frame for another node's entry is dropped when that is HELD, dropped when the node is on the frame's
own port, with no count but the decode's own (log entry 36), and otherwise goes out on the port its decode named (log entry 22). A
newcomer that holds no number makes no second request for an entry (log entry 62). -/
def Obligations.SwitchedStarFrameJoinsTheOtherQueue : Prop :=
  (
  ∀ (e : Moment) (p j : PortId) (s : State) (bytes : List Byte) (r : Reception) (c : Chain) (h : StarHeader),
    let f := (s.arrive e).feedPort p bytes
    f.Sound → (f.port p).rx = some r → r.mode = .full → r.overrun = false → classifyStar r.bytes = .good →
    starHeaderOf r.bytes = some h → r.decode = some (.switchTo j) → r.chain = some c → (f.port p).state = .up →
    (f.port j).state = .up → (f.port j).queue.length < 16 → h.dest ≠ 0xFFFFFFFFFFFF#48 → malformedSource h.src = false →
    trunkFormNumber f.cfg.trunkPrefix h.src = none → f.cfg.baseId ≠ some h.src → f.cfg.printerId ≠ some h.src →
    (∃ n ∈ (f.port p).nodes, n.ident = h.src) → (kindOf h.kind).isAnswer = false → (kindOf h.kind).isLending = false →
    let record : StarRecord :=
      { head := c.first, blocks := c.count, form := .star, asStored := true, length := starFrameLength h.len.toNat, payload := h.len.toNat,
        dest := h.dest, src := h.src, kind := h.kind, seq := h.seq, origin := .star p, cls := .ordinary, proxyAcked := false, collisions := 0,
        ackMisses := 0, busyCount := 0, begun := false, phase := .due }
    exec (.starFrameEnd e p bytes) s = .next
      { ((f.modPort p (fun q =>
          { q with
            rx := none, staging := none, totals := q.totals.set 0 (bump q.totals[0])
            nodes := q.nodes.map (fun n => if n.ident = h.src then { n with lastHeard := f.now } else n) })).modPort j (fun q =>
          { q with queue := q.queue ++ [record] })) with
        pool := { f.pool with records := f.pool.records.set c.last { f.pool.records[c.last] with endMark := true } }
        engine := { f.engine with decodes := f.engine.decodes.set 10 (bump f.engine.decodes[10]) } }
  ) ∧
  (
    ∀ (e : Moment) (p : PortId) (s : State) (bytes : List Byte) (r : Reception) (h : StarHeader) (d : Decode),
      let f := (s.arrive e).feedPort p bytes
      let heard := f.modPort p (fun q =>
        let good := q.totals.set 0 (bump q.totals[0])
        { q with
          rx := none, staging := none
          nodes := if malformedSource h.src then q.nodes
            else q.nodes.map (fun n => if n.ident = h.src then { n with lastHeard := f.now } else n)
          window := if h.dest = 0xFFFFFFFFFFFF#48 then { q.window with bc := bump q.window.bc } else q.window
          totals := if h.dest = 0xFFFFFFFFFFFF#48 then good.set 1 (bump good[1]) else good })
      let counted := fun (k : Fin 12) => heard.modEngine (fun q => { q with decodes := q.decodes.set k (bump q.decodes[k]) })
      let answering := (kindOf h.kind).isAnswer = true ∨ (kindOf h.kind).isLending = true
      let listed := malformedSource h.src = false ∧ trunkFormNumber f.cfg.trunkPrefix h.src = none ∧ f.cfg.baseId ≠ some h.src ∧
        f.cfg.printerId ≠ some h.src ∧ ∃ n ∈ (f.port p).nodes, n.ident = h.src
      f.Sound → (f.port p).rx = some r → r.mode = .full → classifyStar r.bytes = .good → starHeaderOf r.bytes = some h →
      r.decode = some d → (f.port p).state = .up →
      (malformedSource h.src = true ∨ listed → r.chain = none →
        (r.overrun = true → exec (.starFrameEnd e p bytes) s = .next heard) ∧
        (r.overrun = false → d = .malformed → exec (.starFrameEnd e p bytes) s = .next (counted 0)) ∧
        (r.overrun = false → answering → d ≠ .malformed →
          exec (.starFrameEnd e p bytes) s = .next ((heard.raiseDecode d.count).raiseDrop .forbiddenKind)) ∧
        (r.overrun = false → ¬ answering →
          (d = .reserved → exec (.starFrameEnd e p bytes) s = .next (counted 1)) ∧
          (d = .quarantine → exec (.starFrameEnd e p bytes) s = .next (counted 2)) ∧
          (d = .filter → exec (.starFrameEnd e p bytes) s = .next (counted 5)) ∧
          (d = .unreachable → exec (.starFrameEnd e p bytes) s = .next (counted 7)) ∧
          (d = .noPath → exec (.starFrameEnd e p bytes) s = .next (counted 9)) ∧
          (d = .unresolved → exec (.starFrameEnd e p bytes) s = .next (counted 11)))) ∧
      (∀ c, listed → r.overrun = false → r.chain = some c →
        let marked := { heard with pool := { f.pool with
          records := f.pool.records.set c.last { f.pool.records[c.last] with endMark := true } } }
        exec (.starFrameEnd e p bytes) s = .next (marked.endStar ⟨p, h, d, false, some c⟩).finish)
  ) ∧
  (
    ∀ (s : State) (f : StarFrame) (c : Chain), s.check.bad = [] → s.pool.recovering = false → f.chain = some c →
      let k := kindOf f.header.kind
      let counted := s.raiseDecode f.decode.count
      let bound := fun m => ∃ i, s.nodeEntry f = some i ∧ s.boundNumber i = some m
      let record := fun (d m : Byte) =>
        ({ head := c.first, blocks := c.count, form := .star, asStored := false, length := trunkFrameLength f.header.len.toNat,
           payload := f.header.len.toNat, dest := d, src := m, kind := f.header.kind, seq := f.header.seq, origin := .star f.port
           cls := .ordinary, proxyAcked := false, collisions := 0, ackMisses := 0, busyCount := 0, begun := false
           phase := .due } : TrunkRecord)
      let onStar := fun (d : Ident) (asStored : Bool) =>
        ({ head := c.first, blocks := c.count, form := .star, asStored := asStored, length := starFrameLength f.header.len.toNat,
           payload := f.header.len.toNat, dest := d, src := f.header.src, kind := f.header.kind, seq := f.header.seq
           origin := .star f.port, cls := .ordinary, proxyAcked := false, collisions := 0, ackMisses := 0, busyCount := 0
           begun := false, phase := .due } : StarRecord)
      let queued := fun (x : Side) (d m : Byte) (t : State) => t.modUnit x (fun u => { u with queue := u.queue ++ [record d m] })
      let switched := fun (p : PortId) (d : Ident) (asStored : Bool) (t : State) =>
        t.modPort p (fun q => { q with queue := q.queue ++ [onStar d asStored] })
      let alone := fun (x : Side) => (s.side x).state = .joined ∧ (s.side (otherSide x)).state ≠ .joined ∧ (s.unit x).queue.length < 32
      let wide := ∀ x, (s.side x).state = .joined ∧ (s.unit x).queue.length < 32
      let both := fun (d m : Byte) (t : State) =>
        (∀ k, s.Refuses c.count (.star f.port) k → s.endStar f = ((queued .west d m t).raisePool k).raiseDrop .copy) ∧
        (∀ b₀ b, c = ⟨b₀, b₀, 1⟩ → s.pool.records[b₀].next = none → b ≠ b₀ → Memory.wf s.memory = true →
          s.Grants (.star f.port) b →
          ∃ mem, s.endStar f =
              { ((queued .west d m t).modUnit .east (fun u => { u with queue := u.queue ++ [{ record d m with head := b }] })) with
                pool := { s.pool.taken b (.star f.port) with
                  records := s.pool.records.set b ⟨.forwarding, none, true, some (.ingress (.star f.port))⟩ }
                memory := mem } ∧
            Written b 0 (s.loadChain [b₀] 0 128) s.memory mem)
      ((k.isAnswer = true ∨ k.isLending = true) → f.decode ≠ .malformed →
        s.endStar f = (counted.raiseDrop .forbiddenKind).releaseFrom c.first) ∧
      (k.isAnswer = false → k.isLending = false →
        (∀ y d, f.decode = .relay y d →
          (∀ m, bound m → k ≠ .unknown → f.header.len.toNat ≤ 512 →
            ((s.side y).state = .joined → (s.unit y).queue.length < 32 → s.endStar f = queued y d m counted) ∧
            ((s.side y).state ≠ .joined ∨ 32 ≤ (s.unit y).queue.length →
              s.endStar f = (counted.raiseDrop .placement).releaseFrom c.first)) ∧
          (∀ m, bound m → k = .unknown → s.endStar f = (counted.raiseDrop .forbiddenKind).releaseFrom c.first) ∧
          (∀ m, bound m → k ≠ .unknown → 512 < f.header.len.toNat →
            s.endStar f = (counted.raiseDrop .tooLarge).releaseFrom c.first) ∧
          ((∀ m, ¬ bound m) → (s.nodeEntry f ≠ none ∨ f.newcomer = true) →
            s.endStar f = (counted.raiseDrop .noAlias).releaseFrom c.first)) ∧
        (∀ d m x, f.decode = .flood d → bound m → k ≠ .unknown → f.header.len.toNat ≤ 512 → alone x →
          s.endStar f = queued x d m counted) ∧
        (∀ d m, f.decode = .flood d → bound m → k ≠ .unknown → f.header.len.toNat ≤ 512 → wide → both d m counted) ∧
        (∀ m, f.decode = .broadcast → bound m → k ≠ .unknown → k ≠ .datagram → f.header.len.toNat ≤ 512 →
          s.isRepeat m f.header.seq f.header.kind = false → wide →
          both 255 m (counted.enterBroadcast m f.header.seq f.header.kind)) ∧
        (∀ m x, f.decode = .broadcast → bound m → k ≠ .unknown → k ≠ .datagram → f.header.len.toNat ≤ 512 →
          (s.isRepeat m f.header.seq f.header.kind = true → s.endStar f = (counted.raiseDrop .repeated).releaseFrom c.first) ∧
          (s.isRepeat m f.header.seq f.header.kind = false → alone x →
            s.endStar f = queued x 255 m (counted.enterBroadcast m f.header.seq f.header.kind))) ∧
        (∀ p, f.decode = .broadcast → (∀ m, ¬ bound m) → (s.nodeEntry f ≠ none ∨ f.newcomer = true) → k = .datagram → p ≠ f.port →
          (s.port p).state = .up → (s.port p).queue.length < 16 → (∀ q, q ≠ p → q ≠ f.port → (s.port q).state ≠ .up) →
          s.endStar f = switched p f.header.dest true (counted.raiseDrop .noAlias)) ∧
        (f.decode = .junction ∨ (∃ loc, f.decode = .entry 0 loc) →
          (k = .inspectReq → s.endStar f = counted.inspectFrame (.node f.port f.header.src) .star c) ∧
          (k ≠ .inspectReq → s.endStar f = (counted.raiseDrop .localDiscard).releaseFrom c.first)) ∧
        (f.decode = .printer ∨ (∃ loc, f.decode = .entry 1 loc) →
          (k.isPrintRequest = true → s.endStar f = counted.printFrame (.node f.port f.header.src) k none .star c) ∧
          (k.isPrintRequest = false → s.endStar f = (counted.raiseDrop .localDiscard).releaseFrom c.first)) ∧
        (∀ i j en, f.decode = .entry i (some j) → 2 ≤ i.val → s.entry i = some en →
          (en.phase.isHeld = true → s.endStar f = (counted.raiseDrop .held).releaseFrom c.first) ∧
          (∀ m, en.phase = .bound m → j = f.port → s.endStar f = counted.releaseFrom c.first) ∧
          (∀ m, en.phase = .bound m → j ≠ f.port → (s.port j).state = .up → (s.port j).queue.length < 16 →
            s.endStar f = switched j en.ident false counted)))
  )

/-- The source check of a GOOD star frame (R47): a trunk-form source, the base identifier and the printer identifier are a source
clash; a node in no list joins a list that has room, at its tail, and is given the lowest free alias entry from 2 on, UNBOUND, at
the tail of the claim queue, or, with none free, joins without one and is counted; a full list turns it away as node full. A node in
another port's list moves (R48): it leaves that list and joins this one's tail with the entry it had, which from BOUND or HELD
becomes BOUND on this port, its record following; with this list full it is in none. A node of an UP port unheard for a full node
age leaves the list, and its alias entry is released if it has one; before that, and on a port that is not UP, nothing happens
(R49). -/
def Obligations.NodesJoinAndLeaveTheirLists : Prop :=
  (
    ∀ (s : State) (p : PortId) (n : Ident), s.check.bad = [] → malformedSource n = false →
      let clash := s.cfg.trunkPrefix = n.extractLsb' 8 40 ∨ s.cfg.baseId = some n ∨ s.cfg.baseId.map (· + 1) = some n
      (clash → s.checkSource p n = (s.raisePort p .sourceClash, false)) ∧
      (¬ clash → (∀ q, ∀ m ∈ (s.port q).nodes, m.ident ≠ n) →
        ((s.port p).nodes.length = 6 → s.checkSource p n = (s.raisePort p .nodeFull, false)) ∧
        (∀ i : EntryNo, (s.port p).nodes.length < 6 → 2 ≤ i.val → s.entry i = none →
          (∀ k : EntryNo, 2 ≤ k.val → k < i → s.entry k ≠ none) → i ∉ s.lend.claims →
          s.checkSource p n =
            ({ (s.modPort p (fun q => { q with nodes := q.nodes ++ [⟨n, s.now, some i⟩] })) with
               lend := { s.lend with
                 table := s.lend.table.set i (some ⟨.starNode, n, some p, .unbound, 0, 0, 0⟩)
                 claims := s.lend.claims ++ [i] } }, true)) ∧
        ((s.port p).nodes.length < 6 → (∀ k : EntryNo, 2 ≤ k.val → s.entry k ≠ none) →
          s.checkSource p n =
            ((s.modPort p (fun q => { q with nodes := q.nodes ++ [⟨n, s.now, none⟩] })).raiseLend .nodeLimit, true)))
  ) ∧
  (
    ∀ (s : State) (p j : PortId) (n : Ident) (m : Node), s.check.bad = [] → malformedSource n = false →
      s.cfg.trunkPrefix ≠ n.extractLsb' 8 40 → s.cfg.baseId ≠ some n → s.cfg.baseId.map (· + 1) ≠ some n →
      (∀ q, q ≠ j → ∀ m ∈ (s.port q).nodes, m.ident ≠ n) → p ≠ j → (s.port j).nodes.find? (fun m => m.ident == n) = some m →
      let left := s.modPort j (fun q => { q with nodes := q.nodes.filter (fun m => m.ident != n) })
      let moved := left.modPort p (fun q => { q with nodes := q.nodes ++ [⟨n, s.now, m.entry⟩] })
      ((s.port p).nodes.length < 6 →
        (m.entry = none → s.checkSource p n = (moved, true)) ∧
        (∀ i c b r at_ ident, m.entry = some i → s.entry i = some c → (c.phase = .bound b ∨ ∃ t, c.phase = .held b t) →
          s.dir b = some r → r.holder = .own at_ ident i →
          s.checkSource p n =
            ({ moved with
               lend := { s.lend with table := s.lend.table.set i (some { c with phase := .bound b, port := some p }) }
               directory := { s.directory with
                 records := s.directory.records.set b.toNat (some { r with holder := .own (some p) ident i }) b.isLt } }, true))) ∧
      (6 ≤ (s.port p).nodes.length → m.entry = none → s.checkSource p n = (left.raisePort p .nodeFull, false))
  ) ∧
  (
    ∀ (e : Moment) (p : PortId) (i : Ident) (n : Node) (s : State), let a := s.arrive e
      a.Calm → (a.port p).nodes.find? (fun m => m.ident == i) = some n →
      let dropped := a.modPort p (fun q => { q with nodes := q.nodes.filter (fun m => m.ident != i) })
      ((a.port p).state = .up → n.lastHeard + a.cfg.nodeAge * Config.sec ≤ a.now →
        (n.entry = none → exec (.nodeAgeExpiry e p i) s = .next dropped) ∧
        (∀ k c, n.entry = some k → a.entry k = some c → c.phase.holds = none →
          exec (.nodeAgeExpiry e p i) s = .next (dropped.freeEntry k)) ∧
        (∀ k c m, n.entry = some k → a.entry k = some c → c.phase.holds = some m →
          exec (.nodeAgeExpiry e p i) s = .next
            (((((dropped.modLend (fun l => { l with table := l.table.set k (some { c with phase := .unbound }) })).relinquish m c.ident
              .remove).freeEntry k).raiseLend .nodeReleases).finish))) ∧
      ((a.port p).state ≠ .up ∨ a.now < n.lastHeard + a.cfg.nodeAge * Config.sec → exec (.nodeAgeExpiry e p i) s = .next a)
  )

/-- An UP port sends its head record 9.6 µs after the frame it sent last, at once if it sent none: the stored bytes for a frame
switched unchanged, and a fresh star frame from the record's fields and the stored payload for any other. When its last byte has
gone, at 0.8 µs a byte, the record is DELIVERED and its chain released (R51, R52). -/
def Obligations.StarPortSendsItsHeadRecord : Prop :=
  ∀ (e : Moment) (p : PortId) (s : State) (r : StarRecord) (rest : List StarRecord), let a := s.arrive e
    let q := a.port p
    let blocks := chainBlocks a.pool.records 256 r.head
    let line :=
      if r.asStored then a.loadChain blocks 0 r.length
      else starFrame ⟨r.dest, r.src, r.kind, r.seq, BitVec.ofNat 16 r.payload⟩ (a.loadChain blocks (headerBytes r.form) r.payload)
    let gap := q.lastSent = none ∨ ∃ t, q.lastSent = some t ∧ t + 96 ≤ a.now
    a.Calm → q.queue = r :: rest →
    (q.state = .up → q.sending = none → gap →
      exec (.starSendStart e p) s = .next (a.modPort p (fun q =>
        { q with sending := some a.now, lineOut := line, queue := { r with begun := true, phase := .sending } :: rest }))) ∧
    (q.state ≠ .up ∨ q.sending ≠ none ∨ ¬ gap → exec (.starSendStart e p) s = .next a) ∧
    (∀ began, q.sending = some began →
      (began + 8 * q.lineOut.length ≤ a.now →
        exec (.starFrameSent e p) s = .next
          ((((a.modPort p (fun q =>
            { q with
              queue := rest, sending := none, lastSent := some a.now
              totals := q.totals.set 10 (bump q.totals[10]) })).countOutcome r .delivered)).releaseFrom r.head)) ∧
      (a.now < began + 8 * q.lineOut.length → exec (.starFrameSent e p) s = .next a))

/-! ### The Station Directory and Address Lending -/

/-- What a frame learned from does to its source's record (R71, R73): an absent record becomes LEGACY at the side it was heard on; a
record there, or a quarantined one, is heard again; one at the other side moves and counts a move; an OWN-ALIAS record is unchanged.
Counting a move (R73): with no window, or 10 s or more into one, a new window opens at 1; otherwise the count goes up by one; the
fifth quarantines the record for the quarantine time; nothing else of the record changes. -/
def Obligations.LearningCountsMovesInWindows : Prop :=
  (
    ∀ (s : State) (x : Side) (n : Byte), s.check.bad = [] →
      let put := fun (r : DirRecord) => { s.directory with records := s.directory.records.set n.toNat (some r) n.isLt }
      (s.dir n = none → s.learnRecord x n =
        { s with directory := { put ⟨.legacy x, s.now, 0, none, none⟩ with
            counters := s.directory.counters.set 0 (bump s.directory.counters[0]) } }) ∧
      (∀ r, s.dir n = some r → (r.side = some x ∨ (r.side ≠ none ∧ r.quarantine ≠ none)) →
        s.learnRecord x n = { s with directory := put { r with lastHeard := s.now } }) ∧
      (∀ r, s.dir n = some r → r.side = none → s.learnRecord x n = s) ∧
      (∀ r y m, s.dir n = some r → r.side = some y → y ≠ x → r.quarantine = none →
        m = countMove s.cfg s.now { r with
          lastHeard := s.now
          holder := (match r.holder with | .remote _ i p => .remote x i p | _ => .legacy x) } →
        s.learnRecord x n = { s with directory := { put m with
          counters :=
            if m.quarantine = none then s.directory.counters.set 1 (bump s.directory.counters[1])
            else (s.directory.counters.set 1 (bump s.directory.counters[1])).set 2
              (bump (s.directory.counters.set 1 (bump s.directory.counters[1]))[2]) } })
  ) ∧
  (
    ∀ (cfg : Settings) (now : Time) (r : DirRecord), r.quarantine = none →
      let opens := r.windowStart = none ∨ ∃ w, r.windowStart = some w ∧ w + 10 * Config.sec ≤ now
      (opens → countMove cfg now r = { r with moves := 1, windowStart := some now }) ∧
      (¬ opens → r.moves < 4 → countMove cfg now r = { r with moves := r.moves + 1 }) ∧
      (¬ opens → r.moves = 4 →
        countMove cfg now r = { r with moves := 5, quarantine := some (now + cfg.quarantineTime * Config.sec) })
  )

/-- A LEGACY record unheard for a full directory age, and not quarantined, is removed and counted; no other record is removed by age
(R75, R76). A quarantine ends at its expiry: the record is free to move, with no move counted and its location kept, unless it is
LEGACY and already past its age, when it is removed (R74, R76). -/
def Obligations.AgeAndQuarantineExpire : Prop :=
  ∀ (e : Moment) (n : Byte) (r : DirRecord) (s : State), let a := s.arrive e
    let put := fun (q : Option DirRecord) => a.directory.records.set n.toNat q n.isLt
    let removed : State :=
      { a with directory := { a.directory with records := put none, counters := a.directory.counters.set 3 (bump a.directory.counters[3]) } }
    let old := r.lastHeard + a.cfg.directoryAge * Config.sec ≤ a.now
    a.Calm → a.admin.device ≠ .loading → a.dir n = some r →
    (r.isLegacy = true → r.quarantine = none → old → exec (.directoryAgeExpiry e n) s = .next removed) ∧
    (r.isLegacy = false ∨ r.quarantine ≠ none ∨ ¬ old → exec (.directoryAgeExpiry e n) s = .next a) ∧
    (∀ t, r.quarantine = some t → t ≤ a.now →
      (r.isLegacy = true → old → exec (.quarantineExpiry e n) s = .next removed) ∧
      (r.isLegacy = false ∨ ¬ old →
        exec (.quarantineExpiry e n) s = .next
          { a with directory := { a.directory with
              records := put (some { r with quarantine := none, windowStart := none, moves := 0 }) } })) ∧
    ((∀ t, r.quarantine = some t → a.now < t) → exec (.quarantineExpiry e n) s = .next a)

/-- The oldest recent-broadcasts entry is removed 2 s after it was entered, and not before; an entry made for a frame that matches
none stands at the young end, the oldest going first when 32 stand; and a frame that matches one makes none (R95). A trunk broadcast
of a lending kind, in RUN, is handed to the Alias Unit before anything else, as a repeat when it is one, or counted MALFORMED when
its payload is malformed; then a repeat is dropped and counted, and any other is entered and goes as it is stored to the other side,
when that is JOINED with room as the Alias Unit leaves it; it is counted as not placed when the queue is full, and goes nowhere when
the side is not JOINED (R96). What the Alias Unit does with it is stated elsewhere. -/
def Obligations.RecentBroadcastsStandTwoSeconds : Prop :=
  (∀ (e : Moment) (s : State) (b : BroadcastEntry) (rest : List BroadcastEntry), let a := s.arrive e
    a.engine.broadcasts = b :: rest →
    exec (.broadcastEntryExpiry e) s = .next
      (if b.entered + 2 * Config.sec ≤ a.now then { a with engine := { a.engine with broadcasts := rest } } else a)) ∧
  (∀ (s : State) (src seq kind : Byte),
    ((∃ b ∈ s.engine.broadcasts, b.src = src ∧ b.seq = seq ∧ b.kind = kind) → s.enterBroadcast src seq kind = s) ∧
    ((∀ b ∈ s.engine.broadcasts, ¬ (b.src = src ∧ b.seq = seq ∧ b.kind = kind)) →
      s.enterBroadcast src seq kind = { s with engine := { s.engine with
        broadcasts := (if s.engine.broadcasts.length < 32 then s.engine.broadcasts else s.engine.broadcasts.drop 1) ++
          [⟨src, seq, kind, s.now⟩] } })) ∧
  (∀ (s : State) (f : TrunkFrame) (c : Chain), s.check.bad = [] → s.pool.recovering = false → f.echo = false →
    s.cfg.isReserved f.header.src = false → f.chain = some c → f.decode = .broadcast → (kindOf f.header.kind).isLending = true →
    s.admin.device = .run →
    let y := otherSide f.side
    let repeated := s.engine.broadcasts.any (fun b => (b.src == f.header.src) && (b.seq == f.header.seq) && (b.kind == f.header.kind))
    let payload := s.storedPayload (s.blocksOf c.first) .trunk
    let counted := s.raiseDecode .broadcast
    let read := if payloadWellFormed f.header.kind (some f.header.src) payload
      then counted.aliasFrame f.side (kindOf f.header.kind) f.header.seq repeated payload
      else counted.raiseDecode .malformed
    let entered := read.enterBroadcast f.header.src f.header.seq f.header.kind
    let record : TrunkRecord :=
      { head := c.first, blocks := c.count, form := .trunk, asStored := true, length := trunkFrameLength f.header.len.toNat,
        payload := f.header.len.toNat, dest := f.header.dest, src := f.header.src, kind := f.header.kind, seq := f.header.seq
        origin := .side f.side, cls := .ordinary, proxyAcked := false, collisions := 0, ackMisses := 0, busyCount := 0
        begun := false, phase := .due }
    (repeated = true → s.endTrunk f = (read.raiseDrop .repeated).releaseFrom c.first) ∧
    (repeated = false → read.pool.recovering = false →
      ((read.side y).state = .joined → (read.unit y).queue.length < 32 →
        s.endTrunk f = entered.modUnit y (fun u => { u with queue := u.queue ++ [record] })) ∧
      ((read.side y).state = .joined → 32 ≤ (read.unit y).queue.length →
        s.endTrunk f = (entered.raiseDrop .placement).releaseFrom c.first) ∧
      ((read.side y).state ≠ .joined → s.endTrunk f = entered.releaseFrom c.first)))

/-- A frame of the Alias Unit that fits one block, named for two JOINED sides with room (R97, R103, R110): it is formed in one block
and queued on WEST first, a copy of its chain on EAST, which side comes first being the model's choice (log entry 70); the sequence
advances, and the frame stands at the young end of the recent broadcasts, the oldest going first when 32 stand. With one side JOINED
it goes there alone, and is entered in the same way; with none it is not formed and the sequence stays; with the pool refusing, for
any of R58's conditions, the refusal is counted under the first that fails and the frame as not formed. The place a record gets in a
side's queue (R18): waiting control-class records stand ahead of waiting ordinary ones; a control-class record goes behind the
control records that wait and ahead of every other, and an ordinary one to the tail, so that either class stays first come, first
out; and none goes ahead of a head record whose first attempt has begun. A queue of 32, and a side that is not JOINED, takes none.
While a pool recovery is under way no queue takes a record: each placement of a frame is refused and counted, PLACEMENT going up by
one for each, and the chain is the recovery's (R40, R54, R64, R93, R96, R106); that a frame whose own event began the recovery meets
it so is the model's choice (log entry 81). -/
def Obligations.LendingFrameIsFormedAndPlaced : Prop :=
  (∀ (s : State) (kind : Kind) (src : Byte) (payload : List Byte), s.Calm → Memory.wf s.memory = true → kind ≠ .announce →
    payload.length ≤ 13 →
    let frame := trunkFrame ⟨255, src, kind.code, s.lend.seq, BitVec.ofNat 16 payload.length⟩ payload
    let record : BlockNo → TrunkRecord := fun b =>
      { head := b, blocks := 1, form := .trunk, asStored := false, length := trunkFrameLength payload.length,
        payload := payload.length, dest := 255, src := src,
        kind := kind.code, seq := s.lend.seq, origin := .internal, cls := .control, proxyAcked := false, collisions := 0,
        ackMisses := 0, busyCount := 0, begun := false, phase := .due }
    (s.joined .west = false → s.joined .east = false → s.sendLend kind src payload bothSides = (s, false)) ∧
    (∀ k, s.joined .west = true ∨ s.joined .east = true → s.Refuses 1 .internal k →
      s.sendLend kind src payload bothSides = ((s.raisePool k).raiseLend .notFormed, false)) ∧
    (∀ (x : Side) (b : BlockNo), s.joined x = true → s.joined (otherSide x) = false → s.Grants .internal b →
      (s.unit x).queue.length < 32 → s.isRepeat src s.lend.seq kind.code = false →
      ∃ mem broadcasts, s.sendLend kind src payload bothSides =
        ({ (s.modUnit x (fun u => { u with queue := insertByClass u.queue (record b) })) with
          memory := mem
          pool := { s.pool.taken b .internal with
            records := s.pool.records.set b ⟨.forwarding, none, true, some (.ingress .internal)⟩ }
          lend := { s.lend with seq := s.lend.seq + 1 }
          engine := { s.engine with broadcasts := broadcasts } }, true) ∧
        Written b 0 frame s.memory mem ∧
        broadcasts = (if s.engine.broadcasts.length < 32 then s.engine.broadcasts else s.engine.broadcasts.drop 1) ++
          [⟨src, s.lend.seq, kind.code, s.now⟩]) ∧
    (∀ (b b' : BlockNo), s.joined .west = true → s.joined .east = true → b ≠ b' → s.Grants .internal b → s.pool.records[b].next = some b' →
      2 ≤ s.pool.free → s.pool.forwardingHeld + 2 ≤ s.cfg.forwardCap → s.heldCount .internal + 2 ≤ s.cfg.portQuota →
      s.underTest b' = false → (s.unit .west).queue.length < 32 → (s.unit .east).queue.length < 32 →
      s.isRepeat src s.lend.seq kind.code = false →
      ∃ t, s.sendLend kind src payload bothSides = (t, true) ∧
        (t.unit .west).queue = insertByClass (s.unit .west).queue (record b) ∧
        (t.unit .east).queue = insertByClass (s.unit .east).queue (record b') ∧
        t.loadChain [b] 0 frame.length = frame ∧ t.loadChain [b'] 0 frame.length = frame ∧
        (∀ m, m / 128 ≠ b.val → m / 128 ≠ b'.val → readByte t.memory m = readByte s.memory m) ∧
        t.engine = { s.engine with
          broadcasts := (if s.engine.broadcasts.length < 32 then s.engine.broadcasts else s.engine.broadcasts.drop 1) ++
            [⟨src, s.lend.seq, kind.code, s.now⟩] } ∧
        t.lend = { s.lend with seq := s.lend.seq + 1 } ∧ t.pool.free = s.pool.free - 2 ∧ t.directory = s.directory ∧
        t.spool = s.spool ∧ t.ports = s.ports ∧ t.health = s.health ∧ t.check = s.check)) ∧
  (∀ (current control ordinary : List TrunkRecord) (r : TrunkRecord),
    ((current = [] ∧ ∀ w ∈ (control ++ ordinary).head?, w.begun = false) ∨ ∃ w, current = [w] ∧ w.begun = true) →
    (∀ w ∈ control, w.cls = .control) → (∀ w ∈ ordinary, w.cls = .ordinary) →
    (r.cls = .control → insertByClass (current ++ control ++ ordinary) r = current ++ control ++ [r] ++ ordinary) ∧
    (r.cls = .ordinary → insertByClass (current ++ control ++ ordinary) r = current ++ control ++ ordinary ++ [r])) ∧
  (∀ (s : State) (x : Side) (r : TrunkRecord), r.proxyAcked = false → s.pool.recovering = false →
    ((s.unit x).queue.length < 32 → (s.side x).state = .joined →
      s.placeTrunk x r = (s.modUnit x (fun u => { u with queue := insertByClass u.queue r }), true)) ∧
    (32 ≤ (s.unit x).queue.length ∨ (s.side x).state ≠ .joined → s.placeTrunk x r = (s, false))) ∧
  (∀ (s : State) (c : Chain) (tag : Origin) (ts : List Placement) (n : Placed), s.pool.recovering = true →
    (∀ x r, s.placeTrunk x r = (s, false)) ∧ (∀ p r, s.placeStar p r = (s, false)) ∧
    State.placeAll c tag ts true n s = (ts.foldl (fun u _ => u.raiseDrop .placement) s, { n with refused := n.refused + ts.length }))

/-- The head of the claim queue begins a claim while fewer than two entries probe and a side is JOINED (R112): its index leaves the
queue, and the first number of its walk that has no record, is not avoided and stands in no other entry becomes its candidate; it is
PROBING from now, and its first CLAIM is called for. With no such number it is FAILED for 30 s. Otherwise nothing begins. -/
def Obligations.ClaimBeginsWithTheFirstFreeNumber : Prop :=
  ∀ (e : Moment) (s : State) (i : EntryNo) (rest : List EntryNo) (c : AliasEntry), let a := s.arrive e
    let size := a.cfg.lendHigh - a.cfg.lendLow + 1
    let number := fun k => BitVec.ofNat 8 (a.cfg.lendLow + (c.ident.toNat % size + k) % size)
    let fits := fun (n : Byte) => a.dir n = none ∧ n ∉ a.lend.avoid ∧
      ∀ k d, k ≠ i → a.entry k = some d → d.phase.number ≠ some n
    a.Calm → a.admin.device = .run → a.lend.claims = i :: rest → a.entry i = some c →
    (a.probers < 2 → (∃ x, (a.side x).state = .joined) →
      (∀ k, k < size → fits (number k) → (∀ j, j < k → ¬ fits (number j)) →
        exec (.claimBegin e) s = .next
          ((a.modLend (fun l =>
            { l with
              claims := rest
              table := l.table.set i
                (some { c with phase := .probing (number k) (.running a.now), probes := 0, dues := 0 }) })).claimNow i)) ∧
      ((∀ k, k < size → ¬ fits (number k)) →
        exec (.claimBegin e) s = .next
          (a.modLend (fun l =>
            { l with
              claims := rest
              table := l.table.set i (some { c with phase := .failed (a.now + 30 * Config.sec) })
              counters := l.counters.set 5 (bump l.counters[5]) })))) ∧
    (2 ≤ a.probers ∨ (∀ x, (a.side x).state ≠ .joined) → exec (.claimBegin e) s = .next a)

/-- A further CLAIM of a running probe falls due 250 ms after the one before it, three in all: it is formed for the JOINED sides
with the number, the client identifier and the base identifier, and counts as sent when a placement is taken. Before its time, and
after the third, nothing happens (R114). At probe time 750 ms an entry with three CLAIMs sent binds: BOUND, or HELD from that moment
and counted so where its node's port is not UP (R122, log entry 83), a record of its own for the number, the bind counted, an
ANNOUNCE called for; with fewer the probe begins again for the same number. Before that time nothing happens (R77, R114). What a
probe hears of its number, no other entry having it (R116, R117, R119): its own CLAIM come back changes nothing; a CLAIM for a lower
client identifier, or for its own by a lower junction, makes it lose the number and counts a tie lost, and any other counts a tie
won; a DEFEND, and a GOOD frame from that number, make it lose the number. A loss before the sixteenth has the number avoided and
counted as tried, and the first number of a fresh walk that has no record, is not avoided and stands in no other entry becomes the
candidate: the entry is PROBING it from now, its first CLAIM called for, or, with no side JOINED, paused at probe time 0. With no such
number, and at the sixteenth loss, the entry is FAILED for 30 s, the number avoided (R113, R118). When no side is JOINED every running
probe pauses with the probe time reached; a paused one sends no CLAIM and does not bind; and when a side is restored every paused probe
goes on from the time kept, and an ANNOUNCE is called for there (R115, R156). -/
def Obligations.ProbesClaimThreeTimesAndBind : Prop :=
  (
    ∀ (e : Moment) (i : EntryNo) (s : State) (c : AliasEntry) (n : Byte) (start : Time), let a := s.arrive e
      let sent := a.sendLend .claim n ([n] ++ bytesOfIdent c.ident ++ bytesOfIdent (a.cfg.baseId.getD 0)) bothSides
      a.Calm → a.admin.device = .run → a.entry i = some c → c.phase = .probing n (.running start) →
      (c.dues < 3 → start + c.dues * (250 * Config.ms) ≤ a.now →
        exec (.claimDue e i) s = .next
          (sent.1.modLend (fun l =>
            { l with
              table := l.table.set i (some { c with dues := c.dues + 1, probes := if sent.2 then c.probes + 1 else c.probes }) }))) ∧
      (3 ≤ c.dues ∨ a.now < start + c.dues * (250 * Config.ms) → exec (.claimDue e i) s = .next a)
  ) ∧
  (
    ∀ (e : Moment) (i : EntryNo) (s : State) (c : AliasEntry) (n : Byte) (start : Time), let a := s.arrive e
      let loc := match c.client with | .starNode => c.port | _ => none
      let away : Bool := match loc with | some p => decide ((a.port p).state ≠ .up) | none => false
      a.Calm → a.admin.device = .run → a.entry i = some c → c.phase = .probing n (.running start) →
      (start + 750 * Config.ms ≤ a.now → c.probes = 3 →
        exec (.aliasBind e i) s = .next
          (({ a with
              lend := { a.lend with
                table := a.lend.table.set i (some { c with
                  phase := if away then .held n (a.now + a.cfg.aliasHold * Config.sec) else .bound n })
                counters :=
                  let binds := a.lend.counters.set 1 (bump a.lend.counters[1])
                  if away then binds.set 10 (bump binds[10]) else binds }
              directory := { a.directory with
                records := a.directory.records.set n.toNat (some ⟨.own loc c.ident i, a.now, 0, none, none⟩) n.isLt } } : State).announce
            bothSides)) ∧
      (start + 750 * Config.ms ≤ a.now → c.probes ≠ 3 → (∃ x, (a.side x).state = .joined) →
        exec (.aliasBind e i) s = .next
          ((a.modLend (fun l =>
            { l with table := l.table.set i (some { c with phase := .probing n (.running a.now), probes := 0, dues := 0 }) })).claimNow i)) ∧
      (a.now < start + 750 * Config.ms → exec (.aliasBind e i) s = .next a)
  ) ∧
  (
    ∀ (s : State) (x : Side) (i : EntryNo) (c : AliasEntry) (n : Byte) (clock : ProbeClock) (client junction : Ident),
      let base := s.cfg.baseId.getD 0
      let lower := (client ≠ c.ident ∧ client < c.ident) ∨ (client = c.ident ∧ junction < base)
      let lost := s.modLend (fun l =>
        let kept := l.avoid.filter (· != n)
        { l with
          avoid := (if kept.length < 16 then kept else kept.drop 1) ++ [n]
          table := l.table.set i (some { c with tried := c.tried + 1, phase := .failed (s.now + 30 * Config.sec) })
          counters := (l.counters.set 2 (bump l.counters[2])).set 5 (bump l.counters[5]) })
      s.check.bad = [] → s.entry i = some c → c.phase = .probing n clock →
      (∀ k d, s.entry k = some d → d.phase.number = some n → k = i) →
      (15 ≤ c.tried → s.loseProbe i = lost) ∧
      (c.tried < 15 →
        let avoided := (let kept := s.lend.avoid.filter (· != n)
          (if kept.length < 16 then kept else kept.drop 1) ++ [n])
        let size := s.cfg.lendHigh - s.cfg.lendLow + 1
        let number := fun k => BitVec.ofNat 8 (s.cfg.lendLow + (c.ident.toNat % size + k) % size)
        let fits := fun (m : Byte) => s.dir m = none ∧ m ∉ avoided ∧ ∀ k d, k ≠ i → s.entry k = some d → d.phase.number ≠ some m
        let next := fun (m : Byte) (clock : ProbeClock) => s.modLend (fun l =>
          { l with
            avoid := avoided
            table := l.table.set i (some { c with phase := .probing m clock, tried := c.tried + 1, probes := 0, dues := 0 })
            counters := l.counters.set 2 (bump l.counters[2]) })
        (∀ k, k < size → fits (number k) → (∀ j, j < k → ¬ fits (number j)) →
          ((∃ y, (s.side y).state = .joined) → s.loseProbe i = (next (number k) (.running s.now)).claimNow i) ∧
          ((∀ y, (s.side y).state ≠ .joined) → s.loseProbe i = next (number k) (.paused 0))) ∧
        ((∀ k, k < size → ¬ fits (number k)) → s.loseProbe i = lost)) ∧
      (client = c.ident → junction = base → s.hearClaim x ⟨n, client, some junction⟩ = s) ∧
      (lower → s.hearClaim x ⟨n, client, some junction⟩ = (s.loseProbe i).raiseLend .tiesLost) ∧
      (¬ lower → (client ≠ c.ident ∨ junction ≠ base) → s.hearClaim x ⟨n, client, some junction⟩ = s.raiseLend .tiesWon) ∧
      s.hearDefend x ⟨n, client, some junction⟩ = s.loseProbe i ∧ s.sourceNotice n = s.loseProbe i
  ) ∧
  (
    ∀ (e : Moment) (i : EntryNo) (s : State) (c : AliasEntry) (n : Byte) (kept : Time), let a := s.arrive e
      a.Calm → a.admin.device = .run → a.entry i = some c → c.phase = .probing n (.paused kept) →
      exec (.claimDue e i) s = .next a ∧ exec (.aliasBind e i) s = .next a
  ) ∧
  (
    ∀ (s : State) (x : Side), s.check.bad = [] →
      let clocks := fun (f : ProbeClock → ProbeClock) (t : State) => t.modLend (fun l =>
        { l with table := l.table.map (fun o => o.map (fun c =>
            match c.phase with | .probing n clock => { c with phase := .probing n (f clock) } | _ => c)) })
      ((∀ y, (s.side y).state ≠ .joined) →
        s.pauseIfCut = clocks (fun k => match k with | .running start => .paused (s.now - start) | .paused m => .paused m) s) ∧
      ((∃ y, (s.side y).state = .joined) → s.pauseIfCut = s) ∧
      s.restoreSide x =
        (clocks (fun k => match k with | .paused m => .running (s.now - m) | .running start => .running start)
          (s.modSide x (fun h =>
            { h with state := .joined, reason := none, loopHold := none, restores := bump h.restores }))).announce [x]
  )

/-- A FAILED entry at its retry time is UNBOUND again, with nothing tried, at the tail of the claim queue (R118); a HELD entry whose
number no job has for its originator gives up that number at its hold expiry: its record is removed, a RELEASE called for, and it is
freed (R124). Before those times nothing happens. With no job having it for its originator, a number in use that is heard as a
source from the trunk is a conflict: the entry yields it, the record becomes LEGACY where it was heard, a RELEASE is called for, the
number is avoided, and the entry, CONFLICT, joins the claim queue (R120). A duplicate, another junction's DEFEND of the number, is
kept by the lower client identifier, and of one client by the lower junction, with an ANNOUNCE, and yielded otherwise to a REMOTE-
ALIAS record; the junction's own DEFEND come back changes nothing; and a CLAIM of the number is met with a DEFEND on that side,
counted when it is placed (R119, R121). -/
def Obligations.FailedAndHeldEntriesExpire : Prop :=
  (
  ∀ (e : Moment) (i : EntryNo) (s : State) (c : AliasEntry) (t : Time), let a := s.arrive e
    a.Calm → a.admin.device = .run → a.entry i = some c →
    (c.phase = .failed t → t ≤ a.now → i ∉ a.lend.claims →
      exec (.failedRetry e i) s = .next
        (a.modLend (fun l =>
          { l with table := l.table.set i (some { c with phase := .unbound, tried := 0 }), claims := l.claims ++ [i] }))) ∧
    (c.phase = .failed t → a.now < t → exec (.failedRetry e i) s = .next a) ∧
    (∀ n r loc ident, c.phase = .held n t → t ≤ a.now → a.dir n = some r → r.holder = .own loc ident i →
      (∀ k j, a.job k = some j → j.originator ≠ some n) →
      exec (.holdExpiry e i) s = .next
        (((({ a with
            lend := { a.lend with table := a.lend.table.set i (some { c with phase := .unbound }) }
            directory := { a.directory with records := a.directory.records.set n.toNat none n.isLt } } : State).sendLend .release n
              ([n] ++ bytesOfIdent c.ident) bothSides).1.freeEntry i).raiseLend .holdExpiries)) ∧
    (∀ n, c.phase = .held n t → a.now < t → exec (.holdExpiry e i) s = .next a)
  ) ∧
  (
    ∀ (s : State) (x : Side) (i : EntryNo) (c : AliasEntry) (n : Byte) (r : DirRecord) (at_ : Option PortId) (ident : Ident),
      let yielded := fun (h : Holder) =>
        ((({ s with
            lend := { s.lend with table := s.lend.table.set i (some { c with phase := .conflict n }) }
            directory := { s.directory with
              records := s.directory.records.set n.toNat (some ⟨h, s.now, 0, none, none⟩) n.isLt } } : State).sendLend .release n
              ([n] ++ bytesOfIdent c.ident) bothSides).1).modLend (fun l =>
                let kept := l.avoid.filter (· != n)
                { l with
                  avoid := (if kept.length < 16 then kept else kept.drop 1) ++ [n]
                  table := l.table.set i (some { c with phase := .conflict n, tried := 0, probes := 0 })
                  claims := l.claims ++ [i] })
      s.check.bad = [] → s.entry i = some c → c.phase.holds = some n → i ∉ s.lend.claims → s.dir n = some r →
      r.holder = .own at_ ident i → (∀ k j, s.job k = some j → j.originator ≠ some n) →
      s.conflictNotice n x i = (yielded (.legacy x)).raiseLend .conflicts ∧
      (∀ client junction,
        let base := s.cfg.baseId.getD 0
        let lower := (c.ident ≠ client ∧ c.ident < client) ∨ (c.ident = client ∧ base < junction)
        (lower → s.settleDuplicate i client junction x = (s.announce bothSides).raiseLend .duplicatesKept) ∧
        (¬ lower → s.settleDuplicate i client junction x = (yielded (.remote x client junction)).raiseLend .duplicatesLost) ∧
        ((∀ k d, s.entry k = some d → d.phase.number = some n → k = i) →
          (junction = base → s.hearDefend x ⟨n, client, some junction⟩ = s) ∧
          (junction ≠ base → s.hearDefend x ⟨n, client, some junction⟩ = s.settleDuplicate i client junction x) ∧
          s.hearClaim x ⟨n, client, some junction⟩ =
            (let sent := s.sendLend .defend n ([n] ++ bytesOfIdent c.ident ++ bytesOfIdent base) [x]
             if sent.2 then sent.1.raiseLend .defends else sent.1)))
  )

/-- The announce timer runs again for one announce period at each expiry, from the moment its event is taken (log entry 41). The
ANNOUNCE carries entry 0's number when BOUND, the printer's part when printing is enabled, and the other entries in BOUND or HELD in
table order; it goes from the junction's number, or else the lowest listed one, and is not formed when it would hold no number (R3,
R10, R126). -/
def Obligations.AnnounceCarriesTheTable : Prop :=
  ∀ (e : Moment) (s : State) (t : Time), let a := s.arrive e
    let listed := (List.finRange 32).filterMap (fun i =>
      if i = 0 then none else (a.entry i).bind (fun c => c.phase.holds.map (fun n => (n, c.ident, c.phase.isHeld))))
    let own := (a.boundNumber 0).getD 0
    let payload := bytesOfIdent (a.cfg.baseId.getD 0) ++ [own] ++
      (if a.cfg.printEnable ≠ 0 then [1, (a.lentNumber 1).getD 0, a.spool.printer.code] else [0]) ++
      [BitVec.ofNat 8 listed.length] ++
      listed.flatMap (fun m => [m.1] ++ bytesOfIdent m.2.1 ++ [if m.2.2 then 2 else 1])
    let timed := a.modLend (fun l => { l with announceAt := some (a.now + a.cfg.announcePeriod * Config.sec) })
    a.Calm → a.admin.device = .run → a.lend.announceAt = some t →
    (t ≤ a.now → own = 0 → listed = [] → exec (.announceTimerExpiry e) s = .next timed) ∧
    (∀ src, t ≤ a.now → (own ≠ 0 ∨ listed ≠ []) →
      (own ≠ 0 → src = own) → (own = 0 → (∃ m ∈ listed, m.1 = src) ∧ ∀ m ∈ listed, m.1 ≠ 0 ∧ src ≤ m.1) →
      exec (.announceTimerExpiry e) s = .next
        (let sent := timed.sendLend .announce src payload bothSides
         if sent.2 then sent.1.raiseLend .announcesSent else sent.1)) ∧
    (a.now < t → exec (.announceTimerExpiry e) s = .next a)

/-- A peer not heard on either side within three announce periods leaves the roster: its REMOTE-ALIAS records are removed, the count
of those removals not being spoken of, and its loop watch goes; a peer heard within them on some side stays (R79, R128, R160). A
time exactly three periods old is no longer within them, which is the model's reading (log entry 42). An ANNOUNCE heard (R127,
R128): the junction's own is loop evidence; a peer's is tested for a loop, then entered in the roster, and, when it is no repeat,
then tested for duplicates and handed to the directory; a peer in the roster is heard on that side with its new numbers; a new one
joins the lowest free entry, and in a full roster takes the place of the peer whose later last heard is the oldest, which leaves,
counted; two of the same age are not spoken of (log entry 63). What an announced number does to the directory (R78): no number, 255
and a reserved one do nothing; an absent record becomes REMOTE-ALIAS on that side, one of the junction's own is unchanged, a
REMOTE-ALIAS record already on that side is heard again, one at the other side moves, the move counted, and a quarantined one keeps
its side; an unquarantined LEGACY record becomes REMOTE-ALIAS with its move count begun afresh (log entry 15), a move that the write
makes being its first; each write is counted. Then every REMOTE-ALIAS record of that peer whose number this ANNOUNCE does not name
is removed, quarantined or not, and counted, and no other (R78). A RELEASE heard removes the record of its number, counted, when
that is REMOTE-ALIAS with its client identifier, and otherwise changes nothing (R79, R129). -/
def Obligations.UnheardPeerLeavesTheRoster : Prop :=
  (
  ∀ (e : Moment) (j : RosterNo) (s : State) (p : RosterEntry), let a := s.arrive e
    let long := fun (t : Option Time) => ∀ h, t = some h → h + 3 * a.cfg.announcePeriod * Config.sec ≤ a.now
    a.Calm → a.admin.device = .run → a.peer j = some p →
    (long p.heard.west → long p.heard.east →
      ∃ t, exec (.rosterExpiry e j) s = .next t ∧
        t = { a with lend := { a.lend with roster := a.lend.roster.set j none }, directory := t.directory,
                     health := { a.health with watches := a.health.watches.filter (fun w => w.peer != p.ident) } } ∧
        (∀ n : Byte, 1 ≤ n.toNat → n.toNat ≤ 254 → t.dir n =
          (match a.dir n with
           | some r => (match r.holder with
             | .remote _ _ q => if q = p.ident then none else some r
             | _ => some r)
           | none => none))) ∧
    (¬ long p.heard.west ∨ ¬ long p.heard.east → exec (.rosterExpiry e j) s = .next a)
  ) ∧
  (
    ∀ (s : State) (x : Side) (a : Announce) (seq : Byte), s.check.bad = [] →
      let fresh : RosterEntry :=
        ⟨a.junction, a.number, Sides.set ⟨none, none⟩ x (some s.now), Sides.set ⟨none, none⟩ x (some seq), false, a.printer⟩
      (∀ repeated, s.cfg.baseId = some a.junction → s.hearAnnounce x a seq repeated = s.ownEvidence) ∧
      (∀ repeated, s.cfg.baseId ≠ some a.junction →
        let entered := (s.watchPeer a.junction x seq).enterPeer a x seq
        s.hearAnnounce x a seq repeated = if repeated then entered else (entered.announceEntries a x).upkeep a x) ∧
      (∀ j p, s.peer j = some p → p.ident = a.junction → (∀ i q, i < j → s.peer i = some q → q.ident ≠ a.junction) →
        s.enterPeer a x seq = s.modLend (fun l => { l with roster := l.roster.set j (some { p with
          heard := Sides.set p.heard x (some s.now), seq := Sides.set p.seq x (some seq), number := a.number
          printer := a.printer }) })) ∧
      (∀ j, (∀ i q, s.peer i = some q → q.ident ≠ a.junction) → s.peer j = none → (∀ i, i < j → s.peer i ≠ none) →
        s.enterPeer a x seq = s.modLend (fun l => { l with roster := l.roster.set j (some fresh) })) ∧
      (∀ j p, (∀ i, ∃ q, s.peer i = some q ∧ q.ident ≠ a.junction) → s.peer j = some p →
        (∀ i q, i ≠ j → s.peer i = some q → p.lastHeard < q.lastHeard) →
        s.enterPeer a x seq =
          ((((s.modLend (fun l => { l with roster := l.roster.set j none })).peerLeft p.ident).raiseLend
            .rosterReplacements).modLend (fun l => { l with roster := l.roster.set j (some fresh) })))
  ) ∧
  (
    ∀ (s : State) (x : Side) (n : Byte) (client peer : Ident), s.check.bad = [] →
      let put := fun (r : DirRecord) =>
        ({ s with directory := { s.directory with records := s.directory.records.set n.toNat (some r) n.isLt } } : State).raiseDir
          .upkeepWrites
      (n = 0 ∨ n = 255 ∨ s.cfg.isReserved n = true → s.upkeepWrite n client peer x = s) ∧
      (n ≠ 0 → n ≠ 255 → s.cfg.isReserved n = false →
        (s.dir n = none → s.upkeepWrite n client peer x = put ⟨.remote x client peer, s.now, 0, none, none⟩) ∧
        (∀ r, s.dir n = some r → r.side = none → s.upkeepWrite n client peer x = s) ∧
        (∀ r i q, s.dir n = some r → r.holder = .remote x i q →
          s.upkeepWrite n client peer x = put { r with holder := .remote x client peer, lastHeard := s.now }) ∧
        (∀ r y, s.dir n = some r → r.side = some y → r.quarantine ≠ none →
          s.upkeepWrite n client peer x = put { r with holder := .remote y client peer, lastHeard := s.now }) ∧
        (∀ r, s.dir n = some r → r.holder = .legacy x → r.quarantine = none →
          s.upkeepWrite n client peer x = put ⟨.remote x client peer, s.now, 0, none, none⟩) ∧
        (∀ r, s.dir n = some r → r.holder = .legacy (otherSide x) → r.quarantine = none →
          s.upkeepWrite n client peer x = (put ⟨.remote x client peer, s.now, 1, some s.now, none⟩).raiseDir .moves) ∧
        (∀ r i q, s.dir n = some r → r.holder = .remote (otherSide x) i q → r.quarantine = none →
          let moved := countMove s.cfg s.now { r with holder := .remote x client peer, lastHeard := s.now }
          (moved.quarantine = none → s.upkeepWrite n client peer x = (put moved).raiseDir .moves) ∧
          (moved.quarantine ≠ none → s.upkeepWrite n client peer x = ((put moved).raiseDir .moves).raiseDir .quarantines)))
  ) ∧
  (
    ∀ (s : State) (a : Announce) (x : Side), s.check.bad = [] →
      let named := (if a.number = 0 then [] else [(a.number, a.junction)]) ++ a.entries.map (fun e => (e.number, e.client))
      let written := named.foldl (fun t m => t.upkeepWrite m.1 m.2 a.junction x) s
      let leaves := fun n => n ∉ named.map (·.1) ∧ ∃ r y i, written.dir n = some r ∧ r.holder = .remote y i a.junction
      let t := s.upkeep a x
      t = { written with directory := t.directory } ∧
      (∀ n : Byte, 1 ≤ n.toNat → n.toNat ≤ 254 →
        (leaves n → t.dir n = none) ∧ (¬ leaves n → t.dir n = written.dir n)) ∧
      ((∀ n : Byte, 1 ≤ n.toNat → n.toNat ≤ 254 → ¬ leaves n) → t = written) ∧
      (∀ n : Byte, 1 ≤ n.toNat → n.toNat ≤ 254 → leaves n →
        (∀ m : Byte, 1 ≤ m.toNat → m.toNat ≤ 254 → m ≠ n → ¬ leaves m) →
        t = ({ written with directory := { written.directory with
          records := written.directory.records.set n.toNat none n.isLt } } : State).raiseDir .upkeepRemovals)
  ) ∧
  (
    ∀ (s : State) (p : LendPayload), s.check.bad = [] →
      (∀ r y peer, s.dir p.number = some r → r.holder = .remote y p.client peer →
        s.hearRelease p = ({ s with directory := { s.directory with
          records := s.directory.records.set p.number.toNat none p.number.isLt } } : State).raiseDir .upkeepRemovals) ∧
      ((∀ r y peer, s.dir p.number = some r → r.holder ≠ .remote y p.client peer) → s.hearRelease p = s)
  )

/-! ### Shared Printing -/

/-- The print protocol's requests (R135 to R142), with every word sound and no recovery under way. Opening a job: the open is
refused, and counted, for the first of R137's tests that it fails: a requester without a number NO-ADDRESS, the printer's entry not
BOUND DISABLED, a printer that is ABSENT for that, a size over SpoolCap as too large, and with an unfinished job in every slot
QUEUE-FULL. An open that passes the tests, the only job RECEIVING, takes the lowest empty slot, or with none empty that of the
finished record with the earliest finished time, of two as early the lower slot, whose record is discarded; it takes the job
counter's number when no job has it, and begins RECEIVING with index 0, 1 to 9 copies, the separator asked for and the window that
the room allows. A PRINT-DATA: from a requester without a number it is discarded and counted, with no answer; for a number no job
has the answer is NO-SUCH-JOB, and from another than the originator the job's entry, the chain released; for the originator's job it
is discarded and counted when the job is not RECEIVING (answered), its index is below the next index (not answered, and counted a
duplicate), it is above it or the window is 0, or the spool has no room for its blocks (both answered OUT-OF-WINDOW). Otherwise it
is accepted: its blocks become SPOOL for the slot, behind the job's chain (R61), the next index goes up by one, and the answer
carries it with the window of the room that is left, the job being the only one RECEIVING. A PRINT-CLOSE of the originator's
RECEIVING job with as many frames as were accepted makes it READY at the tail of the print order, no other job being RECEIVING; with
another count it is INCOMPLETE; and for any other job it changes nothing. A PRINT-QUERY is answered with the entry of the job named,
of every job for number 0, or with the NO-SUCH-JOB entry, and changes nothing. -/
def Obligations.OpenedJobTakesSlotAndNumber : Prop :=
  (
    ∀ (s : State) (who : Recipient) (n : Byte) (o : PrintOpen),
      s.printOpen who none o = (s.raiseSpool .openRefusals).notify who [refusedEntry .noAddress] ∧
      ((∀ c m, s.entry 1 = some c → c.phase ≠ .bound m) →
        s.printOpen who (some n) o = (s.raiseSpool .openRefusals).notify who [refusedEntry .disabled])
  ) ∧
  (
    ∀ (s : State) (who : Recipient) (n m : Byte) (o : PrintOpen) (k : Slot) (c : AliasEntry), s.check.bad = [] →
      s.pool.recovering = false → s.entry 1 = some c → c.phase = .bound m → s.spool.outbox = [] →
      (s.spool.printer = .absent → s.printOpen who (some n) o = (s.raiseSpool .openRefusals).notify who [refusedEntry .printerAbsent]) ∧
      (s.spool.printer ≠ .absent → s.cfg.spoolCap < o.size →
        s.printOpen who (some n) o = (s.raiseSpool .openRefusals).notify who [refusedEntry .tooLarge]) ∧
      (s.spool.printer ≠ .absent → o.size ≤ s.cfg.spoolCap → (∀ i, ∃ j, s.job i = some j ∧ j.isFinished = false) →
        s.printOpen who (some n) o = (s.raiseSpool .openRefusals).notify who [refusedEntry .queueFull]) ∧
      (s.spool.printer ≠ .absent → o.size ≤ s.cfg.spoolCap →
        (s.job k = none ∧ (∀ i, i < k → s.job i ≠ none)) ∨
          ((∀ i, s.job i ≠ none) ∧ ∃ j f, s.job k = some j ∧ j.isFinished = true ∧ j.finished = some f ∧
            ∀ i q, i ≠ k → s.job i = some q → q.isFinished = true → ∀ g, q.finished = some g → f < g ∨ (f = g ∧ k < i)) →
        k ∉ s.spool.order → s.receivers = [] →
        (∀ i j, s.job i = some j → j.number ≠ s.spool.jobCounter) → 32 ≤ s.cfg.spoolCap - s.pool.spoolHeld →
        s.cfg.spoolCap / 4 ≤ s.cfg.spoolCap - s.pool.spoolHeld →
        let job : Job :=
          { number := s.spool.jobCounter, originator := some n, name := o.name
            copies := if o.copies = 0 then 1 else min o.copies 9
            separator := if o.separator = 2 then true else if o.separator = 1 then false else s.cfg.separatorDefault != 0
            state := .receiving, reason := .none, nextIndex := 0, window := 8, chain := none, printed := 0
            copiesLeft := if o.copies = 0 then 1 else min o.copies 9, openTime := s.now, lastActivity := s.now, finished := none }
        s.printOpen who (some n) o =
          s.modSpool (fun p =>
            { p with
              jobs := p.jobs.set k (some job)
              jobCounter := if p.jobCounter = 255 then 1 else p.jobCounter + 1
              counters := p.counters.set 0 (bump p.counters[0])
              inHand := p.inHand.map (fun h => if h.slot = some k then { h with slot := none } else h)
              outbox := [⟨who, statusPayload [⟨job.number, 1, 0, 0, 8, 0, job.copiesLeft⟩]⟩] }))
  ) ∧
  (
    ∀ (s : State) (c : Chain) (o : Origin) (k : Slot) (last : Option BlockNo), s.check.bad = [] →
      s.pool.recovering = false →
      let bs := s.blocksOf c.first
      (s.cfg.spoolCap < s.pool.spoolHeld + c.count → s.reclassify c k last = (s.raisePool .reclass, false)) ∧
      (s.pool.spoolHeld + c.count ≤ s.cfg.spoolCap → s.pool.Linked o bs → bs.Nodup → (∀ l, last = some l → l ∉ bs) →
        ∃ pool, s.reclassify c k last = ({ s with pool := pool }, true) ∧
          pool = { s.pool with
            records := pool.records
            forwardingHeld := s.pool.forwardingHeld - bs.length
            spoolHeld := s.pool.spoolHeld + bs.length
            held := s.pool.held.set o.idx (s.pool.held[o.idx] - bs.length) } ∧
          (∀ b ∈ bs, pool.records[b] = { s.pool.records[b] with cls := .spool, tag := some (.slot k) }) ∧
          (∀ l, last = some l → pool.records[l] = { s.pool.records[l] with next := some c.first }) ∧
          (∀ b, b ∉ bs → last ≠ some b → pool.records[b] = s.pool.records[b]))
  ) ∧
  (
    ∀ (s : State) (who : Recipient) (number : Option Byte) (m : Byte) (i count : Nat) (c : Chain) (f : Form), s.check.bad = [] →
      s.pool.recovering = false →
      let freed := s.releaseFrom c.first
      let tell := fun (t : State) (entry : StatusEntry) =>
        t.modSpool (fun p => { p with outbox := p.outbox ++ [⟨who, statusPayload [entry]⟩] })
      (number = none → s.printData who number m i c f = freed.raiseSpool .noAddressDiscards ∧
        s.printClose who number m count = s.raiseSpool .noAddressDiscards) ∧
      (∀ n, number = some n → (m = 0 ∨ ∀ k j, s.job k = some j → j.number ≠ m) →
        s.printData who number m i c f = tell freed ⟨m, 0, Reason.noSuchJob.code, 0, 0, 0, 0⟩ ∧
        s.printClose who number m count = tell s ⟨m, 0, Reason.noSuchJob.code, 0, 0, 0, 0⟩) ∧
      (m ≠ 0 → (∀ k j, s.job k = some j → j.number ≠ m) →
        s.printQuery who m = tell s ⟨m, 0, Reason.noSuchJob.code, 0, 0, 0, 0⟩) ∧
      (s.printQuery who 0 = s.notify who ((List.finRange 12).filterMap (fun k => (s.job k).map (fun j => s.jobEntry k j j.reason)))) ∧
      (∀ n k j, number = some n → m ≠ 0 → s.job k = some j → j.number = m →
        (∀ h jh, s.job h = some jh → jh.number = m → h = k) →
        let position := if k ∈ s.spool.order then s.spool.order.idxOf k + 1 else 0
        let entry := fun (r : Reason) =>
          (⟨m, j.state.code, r.code, j.nextIndex, if j.state = .receiving then j.window else 0, position, j.copiesLeft⟩ : StatusEntry)
        let discarded := freed.raiseSpool .dataDiscarded
        (s.printQuery who m = tell s (entry j.reason)) ∧
        (j.originator ≠ some n → s.printData who number m i c f = tell freed (entry j.reason) ∧
          s.printClose who number m count = tell s (entry j.reason)) ∧
        (j.originator = some n → j.state ≠ .receiving →
          s.printData who number m i c f = tell discarded (entry j.reason) ∧
          s.printClose who number m count = tell s (entry j.reason)) ∧
        (j.originator = some n → j.state = .receiving →
          (i < j.nextIndex → s.printData who number m i c f = discarded.raiseSpool .dataDuplicates) ∧
          (j.nextIndex < i ∨ (i = j.nextIndex ∧ j.window = 0) →
            s.printData who number m i c f = tell discarded (entry .outOfWindow)) ∧
          (i = j.nextIndex → 0 < j.window → s.cfg.spoolCap < s.pool.spoolHeld + c.count →
            s.printData who number m i c f =
              tell (((s.raisePool .reclass).releaseFrom c.first).raiseSpool .dataDiscarded) (entry .outOfWindow)) ∧
          (∀ pool : Pool, i = j.nextIndex → 0 < j.window → s.receivers = [k] →
            s.reclassify c k (j.chain.map (·.last)) = ({ s with pool := pool }, true) →
            4 ≤ s.cfg.spoolCap - pool.spoolHeld →
            let w := min 8 ((s.cfg.spoolCap - pool.spoolHeld) / 4)
            s.printData who number m i c f =
              tell (({ s with pool := pool } : State).modSpool (fun p =>
                { p with
                  counters := p.counters.set 2 (bump p.counters[2])
                  jobs := p.jobs.set k (some { j with
                    chain := some (match j.chain with
                      | some d => ⟨d.first, c.last, d.count + c.count, d.forms ++ [f]⟩
                      | none => ⟨c.first, c.last, c.count, [f]⟩)
                    nextIndex := j.nextIndex + 1, lastActivity := s.now, window := w }) }))
                ⟨m, 1, j.reason.code, j.nextIndex + 1, w, position, j.copiesLeft⟩) ∧
          (count ≠ j.nextIndex → s.printClose who number m count = tell s (entry .incomplete)) ∧
          (count = j.nextIndex → s.receivers = [k] → k ∉ s.spool.order →
            s.printClose who number m count =
              tell (s.modSpool (fun p =>
                { p with jobs := p.jobs.set k (some { j with state := .ready, window := 0 }), order := p.order ++ [k] }))
                ⟨m, 2, j.reason.code, j.nextIndex, 0, s.spool.order.length + 1, j.copiesLeft⟩)))
  )

/-- The receive windows (R138): with room of a quarter of SpoolCap or more every RECEIVING job gets the smaller of 8 and its share
of the room at 4 blocks a frame; with less the oldest alone gets the smaller of 8 and a quarter of the room. The eviction check of a
spool change (R143), the spool tight, its room below 4 and nothing to print: the only RECEIVING job becomes CANCELLED as TOO-LARGE, its
chain released; of two the youngest becomes CANCELLED as EVICTED, its chain released and counted, and when that leaves room for a frame
the other's window is computed from it; each is told, the other only when its window was 0. The youngest is the one opened last, of
two opened at one time the one in the higher slot. That EVICTED and TOO-LARGE leave the count of jobs cancelled as it was is the model's
reading of R151 (log entry 51). -/
def Obligations.ReceiveWindowsFollowTheRoom : Prop :=
  (∀ (s : State) (k : Slot) (j : Job), s.check.bad = [] → s.job k = some j →
    let room := s.cfg.spoolCap - s.pool.spoolHeld
    s.computeWindows.job k = some (if j.state = .receiving then
      { j with window :=
          if s.cfg.spoolCap / 4 ≤ room then min 8 (room / 4 / s.receivers.length)
          else if s.oldestReceiver = some k then min 8 (room / 4) else 0 } else j)) ∧
  (∀ (s : State) (k : Slot), s.oldestReceiver = some k → k ∈ s.receivers ∧
    ∀ i ∈ s.receivers, s.openedAt k < s.openedAt i ∨ (s.openedAt k = s.openedAt i ∧ k ≤ i)) ∧
  (∀ (s : State) (k : Slot), s.youngestReceiver = some k → k ∈ s.receivers ∧
    ∀ i ∈ s.receivers, s.openedAt i < s.openedAt k ∨ (s.openedAt i = s.openedAt k ∧ i ≤ k)) ∧
  (∀ (s : State) (k : Slot) (j : Job), s.check.bad = [] → s.pool.recovering = false → s.job k = some j → j.state = .receiving →
    let room := s.cfg.spoolCap - s.pool.spoolHeld
    let freed := match j.chain with | some c => s.releaseFrom c.first | none => s
    let ended := fun (r : Reason) => { j with state := .cancelled, reason := r, chain := none, window := 0, finished := some s.now }
    let told := fun (n : Option Byte) (entry : StatusEntry) => match n with
      | some n => [(⟨.number n, statusPayload [entry]⟩ : Notice)]
      | none => []
    room < s.cfg.spoolCap / 4 → room < 4 → s.spool.order = [] →
    (s.receivers = [k] →
      s.spoolChange none = freed.modSpool (fun p =>
        { p with
          jobs := p.jobs.set k (some (ended .tooLarge))
          outbox := p.outbox ++ told j.originator ⟨j.number, 6, Reason.tooLarge.code, j.nextIndex, 0, 0, j.copiesLeft⟩ })) ∧
    (∀ i ji, s.receivers.filter (· != k) = [i] → s.youngestReceiver = some k → s.job i = some ji →
      let left := s.cfg.spoolCap - freed.pool.spoolHeld
      let w := min 8 (left / 4)
      4 ≤ left →
      s.spoolChange none = freed.modSpool (fun p =>
        { p with
          jobs := (p.jobs.set k (some (ended .evicted))).set i (some { ji with window := w })
          counters := p.counters.set 8 (bump p.counters[8])
          outbox := p.outbox ++ told j.originator ⟨j.number, 6, Reason.evicted.code, j.nextIndex, 0, 0, j.copiesLeft⟩ ++
            (if ji.window = 0 then told ji.originator ⟨ji.number, 1, ji.reason.code, ji.nextIndex, w, 0, ji.copiesLeft⟩ else []) })))

/-- CANCEL-JOB is answered DENIED to a requester off the admin list and UNKNOWN for the argument 0, which is out of its range (R181).
From an admin it answers 1 for a number no job has and 2 for a job already finished, with no other effect; a job that is RECEIVING or
READY and holds no blocks, its originator absent and no other job RECEIVING, is CANCELLED with reason ADMIN, leaves the print order
and is counted, and its number is answered 0 (R141, R183). The command is the oldest of the requests handed over (log entry 11),
whose chain is released before the reply is formed (log entry 50). A RECEIVING job, the only one, idle for the job idle time is
CANCELLED with reason IDLE: its chain goes back, it is counted as an idle cancellation and not among the jobs cancelled (log entry
51), and its originator is given its entry; one that has had data since, or is not RECEIVING, stays (R144). A finished record's slot
is empty 30 s after its finished time, and not before (R134). A PRINT-CANCEL (R136, R141): from a requester without a number it is
counted and not answered; for a number no job has the answer is NO-SUCH-JOB; from another than the originator, and for a finished
job, it changes nothing and is answered with the job's entry; and the originator's job becomes CANCELLED with reason REQUESTED, no
other job being RECEIVING: out of the print order, its chain released, counted, and answered with its entry. If it was at the
printer nothing more of it is presented, and INIT is pulsed: at once when no byte is in hand or the one in hand has stalled, and
otherwise when that byte is settled. A loss notice for a number (R150) makes each RECEIVING job of it CANCELLED with reason
ORIGIN-LOST, finished now, with no chain and no originator; leaves each READY, PRINTING and HELD job of it as it is but for its
originator, now absent; and changes no finished job, and none of another originator unless it is RECEIVING, which the spool change
may touch. A number with no unfinished job changes nothing; of one RECEIVING job, no other being RECEIVING, the chain goes back, the
loss is counted, and no notice is sent. -/
def Obligations.JobsEndByCancelIdlenessAndTime : Prop :=
  (
    ∀ (e : Moment) (s : State) (r : Request) (rest : List Request), let a := s.arrive e
      let b := (a.modAdmin (fun m => { m with inbox := rest })).releaseFrom r.chain
      a.Calm → a.admin.device = .run → a.admin.inbox = r :: rest → r.op = 3 → r.command = 4 →
      (b.isAdmin r.requester = false → exec (.cancelJob e) s = .next (b.reply r 2 [])) ∧
      (b.isAdmin r.requester = true → r.argument = 0 → exec (.cancelJob e) s = .next (b.reply r 1 (List.replicate 16 0xFF))) ∧
      (b.isAdmin r.requester = true → r.argument ≠ 0 → b.slotOf r.argument = none →
        exec (.cancelJob e) s = .next (b.reply r 0 [1])) ∧
      (∀ k j, b.isAdmin r.requester = true → r.argument ≠ 0 → b.slotOf r.argument = some k → b.job k = some j →
        j.isFinished = true → exec (.cancelJob e) s = .next (b.reply r 0 [2])) ∧
      (∀ k j, b.isAdmin r.requester = true → r.argument ≠ 0 → b.slotOf r.argument = some k → b.job k = some j →
        (j.state = .receiving ∨ j.state = .ready) → j.chain = none → j.originator = none → b.receivers.filter (· != k) = [] →
        exec (.cancelJob e) s = .next
          ((b.modSpool (fun q =>
            { q with
              jobs := q.jobs.set k (some { j with state := .cancelled, reason := .admin, window := 0, finished := some a.now })
              order := q.order.filter (· != k)
              counters := q.counters.set 7 (bump q.counters[7]) })).reply r 0 [0]))
  ) ∧
  (
    ∀ (e : Moment) (k : Slot) (j : Job) (s : State), let a := s.arrive e
      let ended : Job := { j with state := .cancelled, reason := .idle, chain := none, window := 0, finished := some a.now }
      let told := match j.originator with
        | some n => [(⟨.number n, statusPayload [⟨j.number, 6, 7, j.nextIndex, 0, 0, j.copiesLeft⟩]⟩ : Notice)]
        | none => []
      a.Calm → a.admin.device = .run → a.job k = some j →
      (j.state = .receiving → j.lastActivity + a.cfg.jobIdle * Config.sec ≤ a.now → k ∉ a.spool.order → a.receivers = [k] →
        let freed := match j.chain with | some c => a.releaseFrom c.first | none => a
        exec (.jobIdleExpiry e k) s = .next
          (freed.modSpool (fun p =>
            { p with
              jobs := p.jobs.set k (some ended)
              counters := p.counters.set 9 (bump p.counters[9])
              outbox := told })).finish) ∧
      (j.state ≠ .receiving ∨ a.now < j.lastActivity + a.cfg.jobIdle * Config.sec → exec (.jobIdleExpiry e k) s = .next a) ∧
      (∀ t, j.isFinished = true → j.finished = some t → t + 30 * Config.sec ≤ a.now →
        exec (.slotExpiry e k) s = .next (a.modSpool (fun p =>
          { p with
            jobs := p.jobs.set k none
            inHand := p.inHand.map (fun h => if h.slot = some k then { h with slot := none } else h) }))) ∧
      (∀ t, j.finished = some t → a.now < t + 30 * Config.sec → exec (.slotExpiry e k) s = .next a)
  ) ∧
  (
    ∀ (s : State) (who : Recipient) (number : Option Byte) (m : Byte), s.check.bad = [] → s.pool.recovering = false →
      let tell := fun (t : State) (entry : StatusEntry) =>
        t.modSpool (fun p => { p with outbox := p.outbox ++ [⟨who, statusPayload [entry]⟩] })
      (number = none → s.printCancel who number m = s.raiseSpool .noAddressDiscards) ∧
      (∀ n, number = some n → (m = 0 ∨ ∀ k j, s.job k = some j → j.number ≠ m) →
        s.printCancel who number m = tell s ⟨m, 0, Reason.noSuchJob.code, 0, 0, 0, 0⟩) ∧
      (∀ n k j, number = some n → m ≠ 0 → s.job k = some j → j.number = m →
        (∀ h jh, s.job h = some jh → jh.number = m → h = k) →
        let position := if k ∈ s.spool.order then s.spool.order.idxOf k + 1 else 0
        (j.originator ≠ some n ∨ j.isFinished = true →
          s.printCancel who number m = tell s
            ⟨m, j.state.code, j.reason.code, j.nextIndex, if j.state = .receiving then j.window else 0, position, j.copiesLeft⟩) ∧
        (j.originator = some n → j.isFinished = false → s.receivers.filter (· != k) = [] →
          let freed := match j.chain with | some c => s.releaseFrom c.first | none => s
          let atPrinter := j.state = .printing ∨ j.state = .held
          let begins := (s.spool.inHand = none ∨ s.spool.stall = true) ∧ s.spool.initPulse = none
          s.printCancel who number m = tell
            (freed.modSpool (fun p =>
              { p with
                jobs := p.jobs.set k (some
                  { j with state := .cancelled, reason := .requested, chain := none, window := 0, finished := some s.now })
                order := p.order.filter (· != k)
                counters := p.counters.set 7 (bump p.counters[7])
                separatorDue := if atPrinter then false else p.separatorDue
                initPulse := if atPrinter ∧ begins then some s.now else p.initPulse
                initPending := if atPrinter then (if begins then false else true) else p.initPending }))
            ⟨m, 6, Reason.requested.code, j.nextIndex, 0, 0, j.copiesLeft⟩))
  ) ∧
  (
    ∀ (s : State) (n : Byte), s.check.bad = [] → s.pool.recovering = false →
      let lost := fun (j : Job) => j.originator = some n ∧ j.isFinished = false
      let ended := fun (j : Job) => { j with
        originator := none, state := .cancelled, reason := .originLost, chain := none, window := 0, finished := some s.now }
      ((∀ k j, s.job k = some j → ¬ lost j) → s.loseOrigin n = s) ∧
      (∀ k j, s.job k = some j →
        (lost j → j.state = .receiving → (s.loseOrigin n).job k = some (ended j)) ∧
        (lost j → j.state ≠ .receiving → (s.loseOrigin n).job k = some { j with originator := none }) ∧
        (¬ lost j → j.state ≠ .receiving → (s.loseOrigin n).job k = some j)) ∧
      (∀ k, s.job k = none → (s.loseOrigin n).job k = none) ∧
      ((∀ k j, s.job k = some j → lost j → j.state ≠ .receiving) →
        s.loseOrigin n = s.modSpool (fun p =>
          { p with jobs := p.jobs.map (fun o => o.map (fun j =>
              if j.originator = some n ∧ j.isFinished = false then { j with originator := none } else j)) })) ∧
      (∀ k j, s.job k = some j → lost j → s.receivers = [k] → (∀ h q, h ≠ k → s.job h = some q → ¬ lost q) →
        let freed := match j.chain with | some c => s.releaseFrom c.first | none => s
        s.loseOrigin n = freed.modSpool (fun p =>
          { p with
            jobs := p.jobs.set k (some (ended j))
            order := p.order.filter (· != k)
            counters := p.counters.set 10 (bump p.counters[10]) }))
  )

/-- The printer's state is the first row of R131 that holds. When its lines change, or the absent watch ends, while a job is
PRINTING, and the new state is ABSENT, OFFLINE, PAPER-OUT or FAULT, the job is HELD with that reason, OFFLINE for ABSENT, and its
originator told; a HELD job is PRINTING again, its originator told, when the new state is READY, and no other state changes a job at
the printer, BUSY among them; with no job at the printer the state alone follows; and the absent mark goes when SELECT is high or
BUSY low (R131, R147). The INIT pulse lasts 100 µs: at its end the byte in hand, the stall condition and the absent mark are gone,
the printer's state is taken from the lines, and the absent watch runs for 5 s. At the watch's end, and not before, the mark is set
when SELECT stayed low and BUSY high, and the printer is then ABSENT (R131, R132). -/
def Obligations.PrinterLinesAndInitSetTheState : Prop :=
  (
    (∀ (mark stall : Bool) (l : PrinterLines), printerStateOf mark stall l =
      if mark then .absent else if l.select = false then .offline else if l.paperOut then .paperOut
      else if l.fault = false ∨ stall then .fault else if l.busy then .busy else .ready) ∧
    (∀ (e : Moment) (s : State), let a := s.arrive e
      let follows := fun (i : Instr) (base : State) =>
        (a.spool.order = [] → exec i s = .next base) ∧
        (∀ k rest j r, a.spool.order = k :: rest → a.job k = some j → j.state = .printing →
          ((base.spool.printer = .offline ∨ base.spool.printer = .absent) ∧ r = Reason.offline ∨
            base.spool.printer = .paperOut ∧ r = Reason.paperOut ∨
            base.spool.printer = .fault ∧ a.spool.stall = false ∧ r = Reason.fault) →
          exec i s = .next
            ({ base with spool := { base.spool with
                jobs := a.spool.jobs.set k (some { j with state := .held, reason := r })
                counters := a.spool.counters.set 12 (bump a.spool.counters[12])
                outbox := (match j.originator with
                  | some n => [⟨.number n, statusPayload [⟨j.number, 4, r.code, j.nextIndex, 0, 1, j.copiesLeft⟩]⟩]
                  | none => []) } } : State).finish) ∧
        (∀ k rest j, a.spool.order = k :: rest → a.job k = some j →
          (j.state = .printing ∧ (base.spool.printer = .ready ∨ base.spool.printer = .busy)) ∨
            (j.state = .held ∧ base.spool.printer ≠ .ready) ∨ (j.state ≠ .printing ∧ j.state ≠ .held) →
          exec i s = .next base) ∧
        (∀ k rest j, a.spool.order = k :: rest → a.job k = some j → j.state = .held → base.spool.printer = .ready →
          exec i s = .next
            ({ base with spool := { base.spool with
                jobs := a.spool.jobs.set k (some { j with state := .printing, reason := .none })
                outbox := (match j.originator with
                  | some n => [⟨.number n, statusPayload [⟨j.number, 3, 0, j.nextIndex, 0, 1, j.copiesLeft⟩]⟩]
                  | none => []) } } : State).finish)
      a.Calm → a.admin.device = .run → a.cfg.printEnable ≠ 0 → a.spool.linesTaken = true →
      (∀ l : PrinterLines,
        let mark := a.spool.absentMark && !l.select && l.busy
        follows (.printerLineChange e l)
          { a with
            pins := { a.pins with printer := l }
            spool := { a.spool with
              printer := printerStateOf mark a.spool.stall l, absentMark := mark
              absentWatch := a.spool.absentWatch.map (fun w => (w.1, w.2 && (!l.select && l.busy))) } }) ∧
      (∀ t stayed, a.spool.absentWatch = some (t, stayed) → t ≤ a.now →
        follows (.absentWatchEnd e)
          { a with spool := { a.spool with
              printer := printerStateOf stayed a.spool.stall a.pins.printer, absentMark := stayed, absentWatch := none } }))
  ) ∧
  (
    ∀ (e : Moment) (s : State) (t : Time), let a := s.arrive e
      let l := a.pins.printer
      a.Calm → a.admin.device = .run → a.cfg.printEnable ≠ 0 → a.spool.order = [] →
      (a.spool.initPulse = some t → a.spool.initPending = false → t + 100 * Config.us ≤ a.now →
        exec (.initPulseEnd e) s = .next
          { a with spool := { a.spool with
              initPulse := none, inHand := none, byteTimer := none, stall := false, absentMark := false, linesTaken := true
              absentWatch := some (a.now + 5 * Config.sec, !l.select && l.busy)
              printer := printerStateOf false false l } }) ∧
      (a.spool.initPulse = some t → a.now < t + 100 * Config.us → exec (.initPulseEnd e) s = .next a) ∧
      (∀ stayed, a.spool.absentWatch = some (t, stayed) → a.now < t → exec (.absentWatchEnd e) s = .next a)
  )

/-- The head job begins printing when it is READY, the printer is READY and no INIT pulse is pending or under way: it is PRINTING
from its first byte, and its originator is told (R145). One with no data has its separator due at once, when it has one, and
otherwise its copies are counted off in the event that begins it: it is DONE, off the print order and counted, its chain released,
and its originator told of both, PRINTING first; the spool change this makes is spoken of with no job RECEIVING (R146). While the
job, the printer or an INIT pulse does not allow it nothing begins. The byte presented is the next data byte of the job: of the data
parts of its frames, each after its job number and index, in chain order, the one at the position printed so far; or the separator
0x0C when one is due. It is then in hand with its 10 s timer; nothing is presented while a byte is in hand, the printer is not
READY, or an INIT pulse is pending or under way (R133, R146). -/
def Obligations.HeadJobPrintsItsBytesInOrder : Prop :=
  (
    ∀ (e : Moment) (s : State) (k : Slot) (rest : List Slot) (j : Job), let a := s.arrive e
      let ready := j.state = .ready ∧ a.spool.printer = .ready ∧ a.spool.initPending = false ∧ a.spool.initPulse = none
      let told := fun (es : List StatusEntry) => match j.originator with
        | some n => es.map (fun e => (⟨.number n, statusPayload [e]⟩ : Notice))
        | none => []
      let begun : StatusEntry := ⟨j.number, 3, j.reason.code, j.nextIndex, 0, 1, j.copiesLeft⟩
      a.Calm → a.admin.device = .run → a.spool.order = k :: rest → a.job k = some j →
      (ready → 0 < a.jobLength j ∨ j.separator = true →
        exec (.jobBegin e) s = .next
          (a.modSpool (fun p =>
            { p with
              jobs := p.jobs.set k (some { j with state := .printing, printed := 0 })
              separatorDue := decide (a.jobLength j = 0)
              outbox := told [begun] })).finish) ∧
      (ready → a.jobLength j = 0 → j.separator = false → a.receivers = [] →
        exec (.jobBegin e) s = .next
          ({ a with
            pool := match j.chain with | some c => (a.releaseFrom c.first).pool | none => a.pool
            spool := { a.spool with
              jobs := a.spool.jobs.set k (some
                { j with
                  state := .done, reason := .none, chain := none, window := 0, printed := 0, copiesLeft := 0
                  finished := some a.now })
              order := a.spool.order.filter (· != k)
              separatorDue := false
              counters := a.spool.counters.set 6 (bump a.spool.counters[6])
              outbox := told [begun, ⟨j.number, 5, 0, j.nextIndex, 0, 0, 0⟩] } } : State).finish) ∧
      (¬ ready → exec (.jobBegin e) s = .next a)
  ) ∧
  (
    ∀ (e : Moment) (s : State) (k : Slot) (rest : List Slot) (j : Job) (c : JobChain), let a := s.arrive e
      let data := (a.jobFrames j).flatMap (fun f => (a.storedPayload f.1 f.2).drop 3)
      let free := a.spool.inHand = none ∧ a.spool.printer = .ready ∧ a.spool.initPending = false ∧ a.spool.initPulse = none
      let shown := fun (v : Byte) (separator : Bool) => a.modSpool (fun p =>
        { p with inHand := some ⟨v, separator, some k⟩, byteTimer := some (a.now + 10 * Config.sec), dataLines := v })
      a.Calm → a.admin.device = .run → a.spool.order = k :: rest → a.job k = some j → j.state = .printing → j.chain = some c →
      (free → a.spool.separatorDue = true → exec (.bytePresent e) s = .next (shown 0x0C true)) ∧
      (∀ v, free → a.spool.separatorDue = false → data[j.printed]? = some v → exec (.bytePresent e) s = .next (shown v false)) ∧
      (¬ free → exec (.bytePresent e) s = .next a)
  )

/-- ACKNOWLEDGE takes the byte in hand: it leaves the hand, its timer stops, the stall condition clears, the printer's state is
taken afresh, and a job at the printer goes on. A data byte moves the position on by one; at the last of a copy a separator falls
due when the flag is set and the byte was not 0x0C. The byte that ends a copy, that last byte or the separator, takes one off copies
left: with copies left over, the position is back at the first byte (of a job of no data the next separator is due); at the last the
job is DONE, out of the print order, its chain released, counted, its originator told. A HELD job stays HELD unless the printer is
READY again, and then goes on PRINTING, its originator told (R133, R146, R147). A byte of a job that has ended is taken as well,
with a pending INIT pulse then begun (R133, R141, R148). That a separator raises no bytes printed, and that the position in an ended
job's record goes up, are the model's reading (log entry 65), as is that the last byte of a HELD job makes it DONE with no PRINTING
between (log entry 84) and that its frames' lengths and links are taken unchecked (log entry 74). With no byte in hand nothing
changes. The byte timer, run out with a byte in hand, sets the stall condition and counts a stall, and the byte stays in hand: the
PRINTING job becomes HELD, counted and told of, with the reason of the printer's state, STALLED when that comes from the stall alone
(log entry 23); a HELD one stays as it is; and a pending INIT pulse begins. Before its time nothing happens (R133, R141, R147). -/
def Obligations.TakenBytesAdvanceTheJob : Prop :=
  (
    ∀ (e : Moment) (s : State), let a := s.arrive e
      a.Calm → a.admin.device = .run → a.spool.inHand = none → exec (.acknowledge e) s = .next a
  ) ∧
  (
    ∀ (e : Moment) (s : State) (k : Slot) (rest : List Slot) (j : Job) (v : Byte) (separator : Bool), let a := s.arrive e
      let st := printerStateOf a.spool.absentMark false a.pins.printer
      let took := fun (p : PrintSpool) => { p with inHand := none, byteTimer := none, stall := false, printer := st }
      let told := fun (entry : StatusEntry) => match j.originator with
        | some n => [(⟨.number n, statusPayload [entry]⟩ : Notice)]
        | none => []
      let more := j.printed + 1 < a.jobLength j
      let copyGoesOn := separator = false ∧ (more ∨ (j.separator = true ∧ v ≠ 0x0C))
      let copyEnds := separator = true ∨ (¬ more ∧ (j.separator = false ∨ v = 0x0C))
      let after := fun (j' : Job) (due : Bool) =>
        if j.state = .held ∧ st = .ready then
          (a.modSpool (fun p =>
            { took p with
              jobs := p.jobs.set k (some { j' with state := .printing, reason := .none })
              separatorDue := due
              outbox := told ⟨j.number, 3, 0, j.nextIndex, 0, 1, j'.copiesLeft⟩ })).finish
        else a.modSpool (fun p => { took p with jobs := p.jobs.set k (some j'), separatorDue := due })
      a.Calm → a.admin.device = .run → a.cfg.printEnable ≠ 0 → a.spool.linesTaken = true → a.spool.initPending = false →
      a.spool.order = k :: rest → a.job k = some j → a.spool.inHand = some ⟨v, separator, some k⟩ →
      (j.state = .printing ∧ (st = .ready ∨ st = .busy) ∨ j.state = .held →
        (copyGoesOn → exec (.acknowledge e) s = .next
          (after { j with printed := j.printed + 1 } (if more then a.spool.separatorDue else true))) ∧
        (copyEnds → 2 ≤ j.copiesLeft → (0 < a.jobLength j ∨ j.separator = true) → exec (.acknowledge e) s = .next
          (after { j with copiesLeft := j.copiesLeft - 1, printed := 0 } (decide (a.jobLength j = 0))))) ∧
      (j.state = .printing ∨ j.state = .held → copyEnds → j.copiesLeft = 1 → a.receivers = [] →
        (∀ i ∈ rest, ∃ ji, a.job i = some ji ∧ ji.state = .ready) →
        let freed := match j.chain with | some c => a.releaseFrom c.first | none => a
        exec (.acknowledge e) s = .next
          (freed.modSpool (fun p =>
            { took p with
              jobs := p.jobs.set k (some { j with
                printed := if separator then j.printed else j.printed + 1
                copiesLeft := 0, state := .done, reason := .none, chain := none, window := 0, finished := some a.now })
              order := rest
              separatorDue := false
              counters := p.counters.set 6 (bump p.counters[6])
              outbox := told ⟨j.number, 5, 0, j.nextIndex, 0, 0, 0⟩ })).finish)
  ) ∧
  (
    ∀ (s : State) (k : Slot) (j : Job) (fuel : Nat), s.check.bad = [] → s.pool.recovering = false → s.job k = some j →
      (j.copiesLeft = 1 → s.receivers.filter (· != k) = [] → j.state = .printing →
        let freed := match j.chain with | some c => s.releaseFrom c.first | none => s
        State.copyEnd k (fuel + 1) s =
          freed.modSpool (fun p =>
            { p with
              jobs := p.jobs.set k (some { j with
                copiesLeft := 0, state := .done, reason := .none, chain := none, window := 0, finished := some s.now })
              order := p.order.filter (· != k)
              separatorDue := false
              counters := p.counters.set 6 (bump p.counters[6])
              outbox := p.outbox ++ (match j.originator with
                | some n => [⟨.number n, statusPayload [⟨j.number, 5, 0, j.nextIndex, 0, 0, 0⟩]⟩]
                | none => []) })) ∧
      (2 ≤ j.copiesLeft → 0 < s.jobLength j →
        State.copyEnd k (fuel + 1) s =
          s.modSpool (fun p =>
            { p with
              jobs := p.jobs.set k (some { j with copiesLeft := j.copiesLeft - 1, printed := 0 })
              separatorDue := false }))
  ) ∧
  (
    ∀ (e : Moment) (s : State) (v : Byte) (separator : Bool) (slot : Option Slot), let a := s.arrive e
      let st := printerStateOf a.spool.absentMark false a.pins.printer
      let settled := fun (p : PrintSpool) =>
        { p with
          inHand := none, byteTimer := none, stall := false, printer := st, initPending := false
          initPulse := if p.initPending then some a.now else none }
      a.Calm → a.admin.device = .run → a.cfg.printEnable ≠ 0 → a.spool.linesTaken = true → a.spool.initPulse = none →
      (∀ i ∈ a.spool.order, ∃ ji, a.job i = some ji ∧ ji.state = .ready) → a.spool.inHand = some ⟨v, separator, slot⟩ →
      (∀ k j, slot = some k → a.job k = some j → j.isFinished = true →
        exec (.acknowledge e) s = .next (a.modSpool (fun p =>
          { settled p with
            jobs := p.jobs.set k (some { j with printed := if separator then j.printed else j.printed + 1 }) }))) ∧
      (slot = none → exec (.acknowledge e) s = .next (a.modSpool settled))
  ) ∧
  (
    ∀ (e : Moment) (s : State) (t : Time) (h : InHand), let a := s.arrive e
      let l := a.pins.printer
      let st := printerStateOf a.spool.absentMark true l
      let stalled := fun (p : PrintSpool) =>
        { p with stall := true, byteTimer := none, counters := p.counters.set 13 (bump p.counters[13]), printer := st }
      let r : Reason :=
        if a.spool.absentMark ∨ l.select = false then .offline else if l.paperOut then .paperOut
        else if l.fault then .stalled else .fault
      a.Calm → a.admin.device = .run → a.spool.inHand = some h → a.spool.byteTimer = some t →
      (t ≤ a.now → a.cfg.printEnable ≠ 0 → a.spool.linesTaken = true →
        (∀ k rest j, a.spool.order = k :: rest → a.job k = some j → a.spool.initPending = false →
          (j.state = .printing →
            exec (.byteTimerExpiry e) s = .next
              (a.modSpool (fun p =>
                { stalled p with
                  jobs := p.jobs.set k (some { j with state := .held, reason := r })
                  counters := (p.counters.set 13 (bump p.counters[13])).set 12 (bump p.counters[12])
                  outbox := (match j.originator with
                    | some n => [⟨.number n, statusPayload [⟨j.number, 4, r.code, j.nextIndex, 0, 1, j.copiesLeft⟩]⟩]
                    | none => []) })).finish) ∧
          (j.state = .held → exec (.byteTimerExpiry e) s = .next (a.modSpool stalled))) ∧
        (a.spool.initPulse = none → (∀ i ∈ a.spool.order, ∃ ji, a.job i = some ji ∧ ji.state = .ready) →
          exec (.byteTimerExpiry e) s = .next
            (a.modSpool (fun p =>
              { stalled p with
                initPulse := if p.initPending then some a.now else none
                initPending := false })))) ∧
      (a.now < t → exec (.byteTimerExpiry e) s = .next a)
  )

/-! ### Line Health and Isolation -/

/-- At a side window's end, in every side state, the unit's counts are taken and the score becomes H − D + P, within 1,023, with E
the collisions beyond half the attempts, P the points, at most 255, and D a quarter of H rounded up; the next window starts at once,
its counts at 0 but for Lf, and ends 1 s later, counted from the moment its event is taken (R153, R154; log entry 41). -/
def Obligations.WindowEndScoresTheSide : Prop :=
  ∀ (e : Moment) (x : Side) (s : State) (t : Time), let a := s.arrive e
    let w := (a.unit x).window
    let h := (a.side x).score
    let excess := w.co - w.tx / 2
    let points := min 255 (4 * w.ce + 2 * w.ru + 8 * w.lc + 32 * w.jb + 4 * w.am + excess + 64 * (if w.lf then 1 else 0))
    let decay := (h + 3) / 4
    a.Calm → a.admin.device ≠ .loading → (a.side x).windowEnd = some t → t ≤ a.now →
    ∃ u, exec (.sideWindowEnd e x) s = .next u ∧
      (u.side x).score = min 1023 (h - decay + points) ∧ (u.side x).score ≤ 1023 ∧
      (u.side x).windowEnd = some (a.now + Config.sec) ∧ (u.side x).lastWindow = w ∧
      (u.unit x).window = ⟨0, 0, 0, 0, 0, 0, 0, Sides.get a.pins.lineFault x⟩ ∧
      ((a.side x).cleanRun ≤ 255 →
        (u.side x).cleanRun = if w.jb = 0 ∧ w.lf = false then min 255 ((a.side x).cleanRun + 1) else 0)

/-- What follows the score (R154, R155, R156): a JOINED side below the partition threshold goes on, and one at or above it is cut
for HEALTH, at once when no attempt is in flight and by PARTITIONING when one is; either cut, when it takes the last JOINED side,
pauses every running probe with the probe time reached (R115); a PARTITIONED side with reason HEALTH is restored, and announced on,
when its score is below the restore threshold with three clean windows, and not before; and one cut for LOOP or ADMIN stays. A side
cut at once has its queue flushed and its unit silent, and a burst being received in full is listened to from then on without its
blocks. A PARTITIONING side whose attempt has ended enters PARTITIONED at the end of that event (log entry 13), its queue flushed
and its unit silent, with a loop hold of 600 s if it was cut for LOOP; one whose attempt is still in flight stays as it is (R38,
R39). A pending restore is carried out in that event: the side, its queue flushed and its unit silenced, is JOINED again, with no
reason and no loop hold, the restore counted, nothing pending, and is announced on (R155, R156, R158). That the cut silences an
answer or a jam going out is the model's reading of R39 (log entry 16), and that an attempt cut short is in flight until its
inverted check has gone out, and one that collided on a JOINED side no longer, that of R38 (log entries 78 and 92). -/
def Obligations.ScoreCutsAndRestoresTheSide : Prop :=
  (
    ∀ (s : State) (x : Side), s.check.bad = [] → s.pool.recovering = false →
      let pause := fun (o : Option AliasEntry) => o.map (fun c =>
        match c.phase with | .probing n (.running start) => { c with phase := .probing n (.paused (s.now - start)) } | _ => c)
      let paused : State := if (s.side (otherSide x)).state = .joined then s else s.modLend (fun l => { l with table := l.table.map pause })
      let cut := (paused.modSide x (fun h =>
        { h with partitionsHealth := bump h.partitionsHealth, reason := some .health, state := .partitioned })).flushUnit x
      let silent := fun (t : State) (rx : Option Reception) => t.modUnit x (fun u =>
        { u with
          rx := rx
          answer := none
          idleSince := if u.sending = .silent then u.idleSince else if u.otherCarrier then none else some s.now
          quiet := if u.sending = .silent then u.quiet else false
          sending := .silent })
      ((s.side x).state = .joined → (s.side x).score < s.cfg.partitionThreshold → s.testSide x = s) ∧
      ((s.side x).state = .joined → s.cfg.partitionThreshold ≤ (s.side x).score → (s.unit x).inFlight = false →
        (s.side x).pendingRestore = false →
        ((s.unit x).rx = none → s.testSide x = silent cut none) ∧
        (∀ r, (s.unit x).rx = some r → r.mode ≠ .full → s.testSide x = silent cut (some r)) ∧
        (∀ r, (s.unit x).rx = some r → r.mode = .full →
          s.testSide x = silent (cut.releaseChain r.chain) (some { r with mode := .countOnly, chain := none }))) ∧
      ((s.side x).state = .joined → s.cfg.partitionThreshold ≤ (s.side x).score → (s.unit x).inFlight = true →
        s.testSide x = paused.modSide x (fun h =>
          { h with partitionsHealth := bump h.partitionsHealth, reason := some .health, state := .partitioning })) ∧
      ((s.side x).state = .partitioned → (s.side x).reason = some .health → (s.side x).score < s.cfg.restoreThreshold →
        3 ≤ (s.side x).cleanRun → (∀ i c, s.entry i = some c → c.phase.isProbing = false) →
        s.testSide x = (s.modSide x (fun h =>
          { h with state := .joined, reason := none, loopHold := none, restores := bump h.restores })).announce [x]) ∧
      ((s.side x).state = .partitioned →
        ((s.side x).reason ≠ some .health ∨ s.cfg.restoreThreshold ≤ (s.side x).score ∨ (s.side x).cleanRun < 3) → s.testSide x = s)
  ) ∧
  (
    ∀ (s : State) (x : Side), s.check.bad = [] → s.pool.recovering = false → (s.side x).state = .partitioning →
      let settled := s.settleSide x
      ((s.unit x).inFlight = true → settled = s) ∧
      ((s.unit x).inFlight = false → (s.side x).pendingRestore = false →
        (settled.side x).state = .partitioned ∧ (settled.unit x).queue = [] ∧
        (settled.unit x).sending = .silent ∧ (settled.unit x).answer = none ∧
        (settled.side x).reason = (s.side x).reason ∧
        ((s.side x).reason = some .loop → (settled.side x).loopHold = some (s.now + 600 * Config.sec)) ∧
        settled.memory = s.memory ∧ settled.directory = s.directory ∧ settled.spool = s.spool ∧
        settled.ports = s.ports ∧ (settled.unit (otherSide x)) = s.unit (otherSide x)) ∧
      ((s.unit x).inFlight = false → (s.side x).pendingRestore = true → (s.unit x).rx = none →
        (∀ i c, s.entry i = some c → c.phase.isProbing = false) →
        let flushed := s.flushUnit x
        (flushed.unit x).queue = [] ∧
        settled = ((flushed.modUnit x (fun u =>
          { u with
            answer := none
            idleSince := if u.sending = .silent then u.idleSince else if u.otherCarrier then none else some s.now
            quiet := if u.sending = .silent then u.quiet else false
            sending := .silent })).modSide x (fun h =>
          { h with
            state := .joined, reason := none, loopHold := none, pendingRestore := false, restores := bump h.restores })).announce [x])
  )

/-- A loop hold that expires restores a side PARTITIONED for LOOP, and announces on it; on a side PARTITIONED for another reason it
stops, and changes nothing else (R157). Loop evidence arises in three ways (R159, R160): a GOOD frame that equals a recent
transmission in source, sequence and kind, heard in RUN, is an echo, and sets the own-looped flag, the frame itself being counted
and dropped; so does the junction's own ANNOUNCE come back; and a peer's ANNOUNCE, heard on a side with the sequence that the roster
has of its last one on the other side, heard there within 2 s, sets its LOOPED mark and takes its watch off the list. Any other
ANNOUNCE of a peer is no evidence: it puts a watch on the list for 2 s in place of the peer's own, and of 17 watches the one with
the earliest expiry is dropped, of two such the one that joined first (log entry 72). Each piece of evidence is handed to the
assessment. A loop watch that expires leaves the list and clears its peer's LOOPED mark (R160). Loop evidence opens an assessment of
one announce period and 2 s, counted, and does not move one that is OPEN (R161). At its end the junction breaks the loop, cutting
EAST for LOOP, only when there is evidence, both sides are JOINED and no LOOPED peer has an identifier as low as its own; in every
case the assessment is IDLE again and the own-looped flag clear (R162). With an attempt in flight on EAST the side is PARTITIONING;
with none, nothing queued and nothing being received it is cut at once. That the cut silences an answer or a jam going out is the
model's reading of R39 (log entry 16), and that an attempt cut short is in flight until its inverted check has gone out, and one
that collided on a JOINED side no longer, that of R38 (log entries 78 and 92). -/
def Obligations.LoopEvidenceIsAssessed : Prop :=
  (
    (∀ (e : Moment) (x : Side) (s : State) (t : Time), let a := s.arrive e
      a.Calm → a.admin.device ≠ .loading → (a.side x).loopHold = some t →
      (t ≤ a.now → (a.side x).state = .partitioned → (a.side x).reason = some .loop →
        (∀ i c, a.entry i = some c → c.phase.isProbing = false) →
        exec (.loopHoldExpiry e x) s = .next ((a.modSide x (fun h =>
          { h with state := .joined, reason := none, loopHold := none, restores := bump h.restores })).announce [x])) ∧
      (t ≤ a.now → (a.side x).reason ≠ some .loop →
        exec (.loopHoldExpiry e x) s = .next (a.modSide x (fun h => { h with loopHold := none }))) ∧
      (a.now < t → exec (.loopHoldExpiry e x) s = .next a)) ∧
    (∀ (e : Moment) (peer : Ident) (s : State) (j : RosterNo) (p : RosterEntry) (w : LoopWatch), let a := s.arrive e
      let others := a.health.watches.filter (fun w => w.peer != peer)
      a.Calm → a.admin.device = .run → w ∈ a.health.watches → w.peer = peer → w.expiry ≤ a.now →
      (a.peer j = some p → p.ident = peer → (∀ i q, i < j → a.peer i = some q → q.ident ≠ peer) →
        exec (.loopWatchExpiry e peer) s = .next
          { a with
            health := { a.health with watches := others }
            lend := { a.lend with roster := a.lend.roster.set j (some { p with looped := false }) } }) ∧
      ((∀ i q, a.peer i = some q → q.ident ≠ peer) →
        exec (.loopWatchExpiry e peer) s = .next { a with health := { a.health with watches := others } }))
  ) ∧
  (
    (∀ s : State,
      (s.health.assessment = none → s.assess = { s with health := { s.health with
        assessment := some (s.now + (s.cfg.announcePeriod + 2) * Config.sec), assessments := bump s.health.assessments } }) ∧
      (∀ t, s.health.assessment = some t → s.assess = s)) ∧
    (∀ (e : Moment) (s : State) (t : Time), let a := s.arrive e
      let looped := fun (p : RosterEntry) => p.looped = true ∧ ∃ j, a.peer j = some p
      let idle := { a with health := { a.health with assessment := none, ownLooped := false } }
      let breaks := (a.health.ownLooped = true ∨ ∃ p, looped p) ∧ (a.side .west).state = .joined ∧ (a.side .east).state = .joined ∧
        ∀ p, looped p → a.cfg.baseId.getD 0 < p.ident
      a.Calm → a.admin.device ≠ .loading → a.health.assessment = some t →
      (t ≤ a.now → ¬ breaks → exec (.loopAssessmentEnd e) s = .next idle) ∧
      (t ≤ a.now → breaks → (a.unit .east).inFlight = true →
        exec (.loopAssessmentEnd e) s = .next
          ((idle.modHealth (fun h => { h with loopBreaks := bump h.loopBreaks })).modSide .east (fun h =>
            { h with partitionsLoop := bump h.partitionsLoop, reason := some .loop, state := .partitioning }))) ∧
      (t ≤ a.now → breaks → (a.unit .east).inFlight = false → (a.unit .east).queue = [] → (a.unit .east).rx = none →
        (a.side .east).pendingRestore = false →
        exec (.loopAssessmentEnd e) s = .next
          (((idle.modHealth (fun h => { h with loopBreaks := bump h.loopBreaks })).modSide .east (fun h =>
            { h with
              partitionsLoop := bump h.partitionsLoop, reason := some .loop, state := .partitioned
              loopHold := some (a.now + 600 * Config.sec) })).modUnit .east (fun u =>
            { u with
              answer := none
              idleSince := if u.sending = .silent then u.idleSince else if u.otherCarrier then none else some a.now
              quiet := if u.sending = .silent then u.quiet else false
              sending := .silent }))) ∧
      (a.now < t → exec (.loopAssessmentEnd e) s = .next a))
  ) ∧
  (
    ∀ (s : State),
      let assessed := fun (t : State) => match s.health.assessment with
        | some _ => t
        | none => t.modHealth (fun h =>
          { h with assessment := some (s.now + (s.cfg.announcePeriod + 2) * Config.sec), assessments := bump h.assessments })
      let own := assessed (s.modHealth (fun h => { h with ownLooped := true }))
      (∀ (x : Side) (a : Announce) (seq : Byte) (repeated : Bool), s.cfg.baseId = some a.junction →
        s.hearAnnounce x a seq repeated = own) ∧
      (∀ (x : Side) (h : TrunkHeader) (r : Reception) (d : Decode), s.check.bad = [] → s.pool.recovering = false →
        s.admin.device = .run → (∃ t ∈ s.transmissions, t.src = h.src ∧ t.seq = h.seq ∧ t.kind = h.kind) →
        (s.handOn x h r d).health = own.health ∧
        (r.chain = none → s.handOn x h r d = (own.raiseDecode d.count).raiseDrop .echo)) ∧
      (∀ (peer : Ident) (x : Side) (seq : Byte), s.check.bad = [] →
        let others := s.health.watches.filter (fun w => w.peer != peer)
        let double := fun (p : RosterEntry) => Sides.get p.seq (otherSide x) = some seq ∧
          ∃ h, Sides.get p.heard (otherSide x) = some h ∧ s.now ≤ h + 2 * Config.sec
        let watched := fun (l : List LoopWatch) => s.modHealth (fun h => { h with watches := l ++ [⟨peer, x, seq, s.now + 2 * Config.sec⟩] })
        let first := fun (j : RosterNo) (p : RosterEntry) =>
          s.peer j = some p ∧ p.ident = peer ∧ ∀ i q, i < j → s.peer i = some q → q.ident ≠ peer
        (∀ j p, first j p → double p →
          s.watchPeer peer x seq = assessed { s with
            health := { s.health with watches := others }
            lend := { s.lend with roster := s.lend.roster.set j (some { p with looped := true }) } }) ∧
        ((∀ j p, first j p → ¬ double p) →
          (others.length < 16 → s.watchPeer peer x seq = watched others) ∧
          (∀ w rest, others = w :: rest → rest.length = 15 → (∀ v ∈ rest, w.expiry ≤ v.expiry) →
            s.watchPeer peer x seq = watched rest)))
  )

/-- At a port window's end the counts are taken and set to 0 and the timer starts again, from the moment its event is taken (log
entry 41); an UP port is isolated when its check errors reach the star error limit, its broadcasts exceed the star broadcast limit,
or an overlong frame came, and not otherwise; a port that is not UP is left as it is (R163). An isolation counts, takes its count
and hold as IsolationEndsByHoldOrCommand says, and takes the port out of UP whatever it sends, holds and receives (R164, R43): the
frame being sent ends with the inverted check of its bytes sent, every record of the queue completes FLUSHED from head to tail, its
chain released, a frame being received is over, its blocks handed back and one more in the isolated-discards total, the rest of it
ignored (log entry 47), one in its first bytes being counted when they are reported (log entry 104), and the nodes' entries become
HELD or are freed as after a loss of link. A port that went DOWN and is UP again is tested on the counts of the whole window, which
is the model's reading (log entry 48). -/
def Obligations.StarWindowEndIsolates : Prop :=
  ∀ (e : Moment) (p : PortId) (s : State) (t : Time), let a := s.arrive e
    let w := (a.port p).window
    let passed := a.cfg.starErrorLimit ≤ w.ce ∨ a.cfg.starBroadcastLimit < w.bc ∨ 1 ≤ w.ov
    a.Sound → a.admin.device = .run → (a.port p).windowEnd = some t → t ≤ a.now →
    ((a.port p).state ≠ .up ∨ ¬ passed →
      exec (.starWindowEnd e p) s = .next
        (a.modPort p (fun q => { q with window := ⟨0, 0, 0⟩, windowEnd := some (a.now + Config.sec) }))) ∧
    ((a.port p).state = .up → passed →
      let k := newIsolationCount (a.port p).k (a.port p).lastRestore a.now
      ∃ u, exec (.starWindowEnd e p) s = .next u ∧
        (a.modPort p (fun q =>
          { q with
            window := ⟨0, 0, 0⟩, windowEnd := some (a.now + Config.sec)
            k := k, holdEnd := some (a.now + isolationHold a.cfg k), isolations := bump q.isolations })).Leaves u p true)

/-- An isolation's count k goes up by one, to 255, when it begins within 60 s of the last restore, and is 1 otherwise; exactly 60 s
counts as within by the model's reading (log entry 73); its hold is the star hold times 1, 2, 4 and, from the fourth on, 8. With
these the port leaves UP for ISOLATED, whatever it sends, holds and receives (R164, R43). An isolation ends at its hold's expiry
(R165): the hold timer stops, this moment is the last restore, and the port is UP if link is present and DOWN if not. Before that
time, and on a port that is not ISOLATED, nothing happens. RELEASE-PORT on a port that is not ISOLATED changes nothing; on an
ISOLATED port it makes the port UP with link and DOWN with none, the star hold stopped and this moment its last restore. The answer
is the port's state after the command (R165, R183). A requester off the admin list is answered DENIED, and an argument other than 1
to 6 UNKNOWN, with no other effect (R181). The command is the oldest request handed over (log entry 11), whose chain is released
before the reply (log entry 50). -/
def Obligations.IsolationEndsByHoldOrCommand : Prop :=
  (
    (∀ (k : Nat) (now : Time), newIsolationCount k none now = 1) ∧
    (∀ (k : Nat) (t now : Time), newIsolationCount k (some t) now = if now ≤ t + 60 * Config.sec then (if k < 255 then k + 1 else 255) else 1) ∧
    (∀ cfg : Settings, isolationHold cfg 1 = cfg.starHold * Config.sec ∧ isolationHold cfg 2 = 2 * (cfg.starHold * Config.sec) ∧
      isolationHold cfg 3 = 4 * (cfg.starHold * Config.sec) ∧ ∀ k, 4 ≤ k → isolationHold cfg k = 8 * (cfg.starHold * Config.sec)) ∧
    (∀ (s : State) (p : PortId), s.check.bad = [] → s.pool.recovering = false → (s.port p).state = .up →
      let k := newIsolationCount (s.port p).k (s.port p).lastRestore s.now
      (s.modPort p (fun q =>
        { q with k := k, holdEnd := some (s.now + isolationHold s.cfg k), isolations := bump q.isolations })).Leaves
          (s.isolatePort p) p true)
  ) ∧
  (
    ∀ (e : Moment) (p : PortId) (s : State), let a := s.arrive e
      a.Calm →
      (∀ t, (a.port p).state = .isolated → (a.port p).holdEnd = some t → t ≤ a.now →
        let freed := a.modPort p (fun q => { q with holdEnd := none, lastRestore := some a.now })
        exec (.starHoldExpiry e p) s = .next
          (if a.pins.link[p] then freed.portUp p else freed.modPort p (fun q => { q with state := .down }))) ∧
      ((a.port p).state ≠ .isolated ∨ (∀ t, (a.port p).holdEnd = some t → a.now < t) → exec (.starHoldExpiry e p) s = .next a)
  ) ∧
  (
    ∀ (e : Moment) (s : State) (r : Request) (rest : List Request) (p : PortId), let a := s.arrive e
      let b := (a.modAdmin (fun m => { m with inbox := rest })).releaseFrom r.chain
      a.Calm → a.admin.device = .run → a.admin.inbox = r :: rest → r.op = 3 → r.command = 3 →
      (b.isAdmin r.requester = false → exec (.releasePort e) s = .next (b.reply r 2 [])) ∧
      (b.isAdmin r.requester = true → r.argument = 0 ∨ 6 < r.argument.toNat →
        exec (.releasePort e) s = .next (b.reply r 1 (List.replicate 16 0xFF))) ∧
      (b.isAdmin r.requester = true → portOf r.argument = some p →
       ((b.port p).state ≠ .isolated → exec (.releasePort e) s = .next (b.reply r 0 [(b.port p).state.code])) ∧
       ((b.port p).state = .isolated → a.pins.link[p] = false →
        exec (.releasePort e) s = .next
          ((b.modPort p (fun q => { q with state := .down, holdEnd := none, lastRestore := some a.now })).reply r 0 [1])) ∧
       ((b.port p).state = .isolated → a.pins.link[p] = true →
        exec (.releasePort e) s = .next
          (((b.modPort p (fun q => { q with holdEnd := none, lastRestore := some a.now })).portUp p).reply r 0 [2])))
  )

/-! ### What every step keeps -/

/-- Block memory keeps its canonical form through every command, from every state. -/
def Obligations.EveryStepKeepsMemoryCanonical : Prop :=
  ∀ s t : State, Memory.wf s.memory = true → step s = .next t → Memory.wf t.memory = true

/-- Every bound that the rules put on a score, a queue or a list (the scores, the transmit queues, the recent receipts,
transmissions and broadcasts, the node lists, the retired list, the waiting tests, the avoided numbers, the loop watches, the claim
queue and the print order) is kept by every command, from every state that meets them all. -/
def Obligations.EveryStepKeepsTheBounds : Prop :=
  ∀ s t : State, s.Bounded → step s = .next t → t.Bounded

/-- The numbers lent and the directory's own records agree through every command that comes with no memory upset to a state whose
stores are sound (R112, R114). -/
def Obligations.EveryStepKeepsTheNumbersInAgreement : Prop :=
  ∀ (c : Instr) (s t : State), c.moment.upsets = [] → s.check.bad = [] → s.NumbersAgree → exec c s = .next t → t.NumbersAgree

end Statements
end

