-- ==== Sys2Proof/Laws/State.lean ====
section
/-! SUPPORT. One lemma per field of State per update of one block, all by rfl, and the reading back of what an update wrote. -/

namespace Sys2Proof.Machine

variable (s : State)

/-! ### modUnit -/

@[simp] theorem modUnit_now (x : Side) (f : TrunkUnit → TrunkUnit) : (s.modUnit x f).now = s.now := rfl
@[simp] theorem modUnit_pending (x : Side) (f : TrunkUnit → TrunkUnit) : (s.modUnit x f).pending = s.pending := rfl
@[simp] theorem modUnit_pins (x : Side) (f : TrunkUnit → TrunkUnit) : (s.modUnit x f).pins = s.pins := rfl
@[simp] theorem modUnit_admin (x : Side) (f : TrunkUnit → TrunkUnit) : (s.modUnit x f).admin = s.admin := rfl
@[simp] theorem modUnit_trunk (x : Side) (f : TrunkUnit → TrunkUnit) : (s.modUnit x f).trunk = Sides.set s.trunk x (f (Sides.get s.trunk x)) := rfl
@[simp] theorem modUnit_receipts (x : Side) (f : TrunkUnit → TrunkUnit) : (s.modUnit x f).receipts = s.receipts := rfl
@[simp] theorem modUnit_transmissions (x : Side) (f : TrunkUnit → TrunkUnit) : (s.modUnit x f).transmissions = s.transmissions := rfl
@[simp] theorem modUnit_ports (x : Side) (f : TrunkUnit → TrunkUnit) : (s.modUnit x f).ports = s.ports := rfl
@[simp] theorem modUnit_pool (x : Side) (f : TrunkUnit → TrunkUnit) : (s.modUnit x f).pool = s.pool := rfl
@[simp] theorem modUnit_memory (x : Side) (f : TrunkUnit → TrunkUnit) : (s.modUnit x f).memory = s.memory := rfl
@[simp] theorem modUnit_directory (x : Side) (f : TrunkUnit → TrunkUnit) : (s.modUnit x f).directory = s.directory := rfl
@[simp] theorem modUnit_engine (x : Side) (f : TrunkUnit → TrunkUnit) : (s.modUnit x f).engine = s.engine := rfl
@[simp] theorem modUnit_lend (x : Side) (f : TrunkUnit → TrunkUnit) : (s.modUnit x f).lend = s.lend := rfl
@[simp] theorem modUnit_spool (x : Side) (f : TrunkUnit → TrunkUnit) : (s.modUnit x f).spool = s.spool := rfl
@[simp] theorem modUnit_health (x : Side) (f : TrunkUnit → TrunkUnit) : (s.modUnit x f).health = s.health := rfl
@[simp] theorem modUnit_check (x : Side) (f : TrunkUnit → TrunkUnit) : (s.modUnit x f).check = s.check := rfl

/-! ### modPort -/

@[simp] theorem modPort_now (p : PortId) (f : Port → Port) : (s.modPort p f).now = s.now := rfl
@[simp] theorem modPort_pending (p : PortId) (f : Port → Port) : (s.modPort p f).pending = s.pending := rfl
@[simp] theorem modPort_pins (p : PortId) (f : Port → Port) : (s.modPort p f).pins = s.pins := rfl
@[simp] theorem modPort_admin (p : PortId) (f : Port → Port) : (s.modPort p f).admin = s.admin := rfl
@[simp] theorem modPort_trunk (p : PortId) (f : Port → Port) : (s.modPort p f).trunk = s.trunk := rfl
@[simp] theorem modPort_receipts (p : PortId) (f : Port → Port) : (s.modPort p f).receipts = s.receipts := rfl
@[simp] theorem modPort_transmissions (p : PortId) (f : Port → Port) : (s.modPort p f).transmissions = s.transmissions := rfl
@[simp] theorem modPort_ports (p : PortId) (f : Port → Port) : (s.modPort p f).ports = s.ports.set p (f s.ports[p]) := rfl
@[simp] theorem modPort_pool (p : PortId) (f : Port → Port) : (s.modPort p f).pool = s.pool := rfl
@[simp] theorem modPort_memory (p : PortId) (f : Port → Port) : (s.modPort p f).memory = s.memory := rfl
@[simp] theorem modPort_directory (p : PortId) (f : Port → Port) : (s.modPort p f).directory = s.directory := rfl
@[simp] theorem modPort_engine (p : PortId) (f : Port → Port) : (s.modPort p f).engine = s.engine := rfl
@[simp] theorem modPort_lend (p : PortId) (f : Port → Port) : (s.modPort p f).lend = s.lend := rfl
@[simp] theorem modPort_spool (p : PortId) (f : Port → Port) : (s.modPort p f).spool = s.spool := rfl
@[simp] theorem modPort_health (p : PortId) (f : Port → Port) : (s.modPort p f).health = s.health := rfl
@[simp] theorem modPort_check (p : PortId) (f : Port → Port) : (s.modPort p f).check = s.check := rfl

/-! ### modSide -/

@[simp] theorem modSide_now (x : Side) (f : SideHealth → SideHealth) : (s.modSide x f).now = s.now := rfl
@[simp] theorem modSide_pending (x : Side) (f : SideHealth → SideHealth) : (s.modSide x f).pending = s.pending := rfl
@[simp] theorem modSide_pins (x : Side) (f : SideHealth → SideHealth) : (s.modSide x f).pins = s.pins := rfl
@[simp] theorem modSide_admin (x : Side) (f : SideHealth → SideHealth) : (s.modSide x f).admin = s.admin := rfl
@[simp] theorem modSide_trunk (x : Side) (f : SideHealth → SideHealth) : (s.modSide x f).trunk = s.trunk := rfl
@[simp] theorem modSide_receipts (x : Side) (f : SideHealth → SideHealth) : (s.modSide x f).receipts = s.receipts := rfl
@[simp] theorem modSide_transmissions (x : Side) (f : SideHealth → SideHealth) : (s.modSide x f).transmissions = s.transmissions := rfl
@[simp] theorem modSide_ports (x : Side) (f : SideHealth → SideHealth) : (s.modSide x f).ports = s.ports := rfl
@[simp] theorem modSide_pool (x : Side) (f : SideHealth → SideHealth) : (s.modSide x f).pool = s.pool := rfl
@[simp] theorem modSide_memory (x : Side) (f : SideHealth → SideHealth) : (s.modSide x f).memory = s.memory := rfl
@[simp] theorem modSide_directory (x : Side) (f : SideHealth → SideHealth) : (s.modSide x f).directory = s.directory := rfl
@[simp] theorem modSide_engine (x : Side) (f : SideHealth → SideHealth) : (s.modSide x f).engine = s.engine := rfl
@[simp] theorem modSide_lend (x : Side) (f : SideHealth → SideHealth) : (s.modSide x f).lend = s.lend := rfl
@[simp] theorem modSide_spool (x : Side) (f : SideHealth → SideHealth) : (s.modSide x f).spool = s.spool := rfl
@[simp] theorem modSide_health (x : Side) (f : SideHealth → SideHealth) : (s.modSide x f).health = { s.health with sides := Sides.set s.health.sides x (f (Sides.get s.health.sides x)) } := rfl
@[simp] theorem modSide_check (x : Side) (f : SideHealth → SideHealth) : (s.modSide x f).check = s.check := rfl

/-! ### modPool -/

@[simp] theorem modPool_now (f : Pool → Pool) : (s.modPool f).now = s.now := rfl
@[simp] theorem modPool_pending (f : Pool → Pool) : (s.modPool f).pending = s.pending := rfl
@[simp] theorem modPool_pins (f : Pool → Pool) : (s.modPool f).pins = s.pins := rfl
@[simp] theorem modPool_admin (f : Pool → Pool) : (s.modPool f).admin = s.admin := rfl
@[simp] theorem modPool_trunk (f : Pool → Pool) : (s.modPool f).trunk = s.trunk := rfl
@[simp] theorem modPool_receipts (f : Pool → Pool) : (s.modPool f).receipts = s.receipts := rfl
@[simp] theorem modPool_transmissions (f : Pool → Pool) : (s.modPool f).transmissions = s.transmissions := rfl
@[simp] theorem modPool_ports (f : Pool → Pool) : (s.modPool f).ports = s.ports := rfl
@[simp] theorem modPool_pool (f : Pool → Pool) : (s.modPool f).pool = f s.pool := rfl
@[simp] theorem modPool_memory (f : Pool → Pool) : (s.modPool f).memory = s.memory := rfl
@[simp] theorem modPool_directory (f : Pool → Pool) : (s.modPool f).directory = s.directory := rfl
@[simp] theorem modPool_engine (f : Pool → Pool) : (s.modPool f).engine = s.engine := rfl
@[simp] theorem modPool_lend (f : Pool → Pool) : (s.modPool f).lend = s.lend := rfl
@[simp] theorem modPool_spool (f : Pool → Pool) : (s.modPool f).spool = s.spool := rfl
@[simp] theorem modPool_health (f : Pool → Pool) : (s.modPool f).health = s.health := rfl
@[simp] theorem modPool_check (f : Pool → Pool) : (s.modPool f).check = s.check := rfl

/-! ### modEngine -/

@[simp] theorem modEngine_now (f : Forwarding → Forwarding) : (s.modEngine f).now = s.now := rfl
@[simp] theorem modEngine_pending (f : Forwarding → Forwarding) : (s.modEngine f).pending = s.pending := rfl
@[simp] theorem modEngine_pins (f : Forwarding → Forwarding) : (s.modEngine f).pins = s.pins := rfl
@[simp] theorem modEngine_admin (f : Forwarding → Forwarding) : (s.modEngine f).admin = s.admin := rfl
@[simp] theorem modEngine_trunk (f : Forwarding → Forwarding) : (s.modEngine f).trunk = s.trunk := rfl
@[simp] theorem modEngine_receipts (f : Forwarding → Forwarding) : (s.modEngine f).receipts = s.receipts := rfl
@[simp] theorem modEngine_transmissions (f : Forwarding → Forwarding) : (s.modEngine f).transmissions = s.transmissions := rfl
@[simp] theorem modEngine_ports (f : Forwarding → Forwarding) : (s.modEngine f).ports = s.ports := rfl
@[simp] theorem modEngine_pool (f : Forwarding → Forwarding) : (s.modEngine f).pool = s.pool := rfl
@[simp] theorem modEngine_memory (f : Forwarding → Forwarding) : (s.modEngine f).memory = s.memory := rfl
@[simp] theorem modEngine_directory (f : Forwarding → Forwarding) : (s.modEngine f).directory = s.directory := rfl
@[simp] theorem modEngine_engine (f : Forwarding → Forwarding) : (s.modEngine f).engine = f s.engine := rfl
@[simp] theorem modEngine_lend (f : Forwarding → Forwarding) : (s.modEngine f).lend = s.lend := rfl
@[simp] theorem modEngine_spool (f : Forwarding → Forwarding) : (s.modEngine f).spool = s.spool := rfl
@[simp] theorem modEngine_health (f : Forwarding → Forwarding) : (s.modEngine f).health = s.health := rfl
@[simp] theorem modEngine_check (f : Forwarding → Forwarding) : (s.modEngine f).check = s.check := rfl

/-! ### modLend -/

@[simp] theorem modLend_now (f : LendUnit → LendUnit) : (s.modLend f).now = s.now := rfl
@[simp] theorem modLend_pending (f : LendUnit → LendUnit) : (s.modLend f).pending = s.pending := rfl
@[simp] theorem modLend_pins (f : LendUnit → LendUnit) : (s.modLend f).pins = s.pins := rfl
@[simp] theorem modLend_admin (f : LendUnit → LendUnit) : (s.modLend f).admin = s.admin := rfl
@[simp] theorem modLend_trunk (f : LendUnit → LendUnit) : (s.modLend f).trunk = s.trunk := rfl
@[simp] theorem modLend_receipts (f : LendUnit → LendUnit) : (s.modLend f).receipts = s.receipts := rfl
@[simp] theorem modLend_transmissions (f : LendUnit → LendUnit) : (s.modLend f).transmissions = s.transmissions := rfl
@[simp] theorem modLend_ports (f : LendUnit → LendUnit) : (s.modLend f).ports = s.ports := rfl
@[simp] theorem modLend_pool (f : LendUnit → LendUnit) : (s.modLend f).pool = s.pool := rfl
@[simp] theorem modLend_memory (f : LendUnit → LendUnit) : (s.modLend f).memory = s.memory := rfl
@[simp] theorem modLend_directory (f : LendUnit → LendUnit) : (s.modLend f).directory = s.directory := rfl
@[simp] theorem modLend_engine (f : LendUnit → LendUnit) : (s.modLend f).engine = s.engine := rfl
@[simp] theorem modLend_lend (f : LendUnit → LendUnit) : (s.modLend f).lend = f s.lend := rfl
@[simp] theorem modLend_spool (f : LendUnit → LendUnit) : (s.modLend f).spool = s.spool := rfl
@[simp] theorem modLend_health (f : LendUnit → LendUnit) : (s.modLend f).health = s.health := rfl
@[simp] theorem modLend_check (f : LendUnit → LendUnit) : (s.modLend f).check = s.check := rfl

/-! ### modSpool -/

@[simp] theorem modSpool_now (f : PrintSpool → PrintSpool) : (s.modSpool f).now = s.now := rfl
@[simp] theorem modSpool_pending (f : PrintSpool → PrintSpool) : (s.modSpool f).pending = s.pending := rfl
@[simp] theorem modSpool_pins (f : PrintSpool → PrintSpool) : (s.modSpool f).pins = s.pins := rfl
@[simp] theorem modSpool_admin (f : PrintSpool → PrintSpool) : (s.modSpool f).admin = s.admin := rfl
@[simp] theorem modSpool_trunk (f : PrintSpool → PrintSpool) : (s.modSpool f).trunk = s.trunk := rfl
@[simp] theorem modSpool_receipts (f : PrintSpool → PrintSpool) : (s.modSpool f).receipts = s.receipts := rfl
@[simp] theorem modSpool_transmissions (f : PrintSpool → PrintSpool) : (s.modSpool f).transmissions = s.transmissions := rfl
@[simp] theorem modSpool_ports (f : PrintSpool → PrintSpool) : (s.modSpool f).ports = s.ports := rfl
@[simp] theorem modSpool_pool (f : PrintSpool → PrintSpool) : (s.modSpool f).pool = s.pool := rfl
@[simp] theorem modSpool_memory (f : PrintSpool → PrintSpool) : (s.modSpool f).memory = s.memory := rfl
@[simp] theorem modSpool_directory (f : PrintSpool → PrintSpool) : (s.modSpool f).directory = s.directory := rfl
@[simp] theorem modSpool_engine (f : PrintSpool → PrintSpool) : (s.modSpool f).engine = s.engine := rfl
@[simp] theorem modSpool_lend (f : PrintSpool → PrintSpool) : (s.modSpool f).lend = s.lend := rfl
@[simp] theorem modSpool_spool (f : PrintSpool → PrintSpool) : (s.modSpool f).spool = f s.spool := rfl
@[simp] theorem modSpool_health (f : PrintSpool → PrintSpool) : (s.modSpool f).health = s.health := rfl
@[simp] theorem modSpool_check (f : PrintSpool → PrintSpool) : (s.modSpool f).check = s.check := rfl

/-! ### modHealth -/

@[simp] theorem modHealth_now (f : Health → Health) : (s.modHealth f).now = s.now := rfl
@[simp] theorem modHealth_pending (f : Health → Health) : (s.modHealth f).pending = s.pending := rfl
@[simp] theorem modHealth_pins (f : Health → Health) : (s.modHealth f).pins = s.pins := rfl
@[simp] theorem modHealth_admin (f : Health → Health) : (s.modHealth f).admin = s.admin := rfl
@[simp] theorem modHealth_trunk (f : Health → Health) : (s.modHealth f).trunk = s.trunk := rfl
@[simp] theorem modHealth_receipts (f : Health → Health) : (s.modHealth f).receipts = s.receipts := rfl
@[simp] theorem modHealth_transmissions (f : Health → Health) : (s.modHealth f).transmissions = s.transmissions := rfl
@[simp] theorem modHealth_ports (f : Health → Health) : (s.modHealth f).ports = s.ports := rfl
@[simp] theorem modHealth_pool (f : Health → Health) : (s.modHealth f).pool = s.pool := rfl
@[simp] theorem modHealth_memory (f : Health → Health) : (s.modHealth f).memory = s.memory := rfl
@[simp] theorem modHealth_directory (f : Health → Health) : (s.modHealth f).directory = s.directory := rfl
@[simp] theorem modHealth_engine (f : Health → Health) : (s.modHealth f).engine = s.engine := rfl
@[simp] theorem modHealth_lend (f : Health → Health) : (s.modHealth f).lend = s.lend := rfl
@[simp] theorem modHealth_spool (f : Health → Health) : (s.modHealth f).spool = s.spool := rfl
@[simp] theorem modHealth_health (f : Health → Health) : (s.modHealth f).health = f s.health := rfl
@[simp] theorem modHealth_check (f : Health → Health) : (s.modHealth f).check = s.check := rfl

/-! ### modCheck -/

@[simp] theorem modCheck_now (f : CheckUnit → CheckUnit) : (s.modCheck f).now = s.now := rfl
@[simp] theorem modCheck_pending (f : CheckUnit → CheckUnit) : (s.modCheck f).pending = s.pending := rfl
@[simp] theorem modCheck_pins (f : CheckUnit → CheckUnit) : (s.modCheck f).pins = s.pins := rfl
@[simp] theorem modCheck_admin (f : CheckUnit → CheckUnit) : (s.modCheck f).admin = s.admin := rfl
@[simp] theorem modCheck_trunk (f : CheckUnit → CheckUnit) : (s.modCheck f).trunk = s.trunk := rfl
@[simp] theorem modCheck_receipts (f : CheckUnit → CheckUnit) : (s.modCheck f).receipts = s.receipts := rfl
@[simp] theorem modCheck_transmissions (f : CheckUnit → CheckUnit) : (s.modCheck f).transmissions = s.transmissions := rfl
@[simp] theorem modCheck_ports (f : CheckUnit → CheckUnit) : (s.modCheck f).ports = s.ports := rfl
@[simp] theorem modCheck_pool (f : CheckUnit → CheckUnit) : (s.modCheck f).pool = s.pool := rfl
@[simp] theorem modCheck_memory (f : CheckUnit → CheckUnit) : (s.modCheck f).memory = s.memory := rfl
@[simp] theorem modCheck_directory (f : CheckUnit → CheckUnit) : (s.modCheck f).directory = s.directory := rfl
@[simp] theorem modCheck_engine (f : CheckUnit → CheckUnit) : (s.modCheck f).engine = s.engine := rfl
@[simp] theorem modCheck_lend (f : CheckUnit → CheckUnit) : (s.modCheck f).lend = s.lend := rfl
@[simp] theorem modCheck_spool (f : CheckUnit → CheckUnit) : (s.modCheck f).spool = s.spool := rfl
@[simp] theorem modCheck_health (f : CheckUnit → CheckUnit) : (s.modCheck f).health = s.health := rfl
@[simp] theorem modCheck_check (f : CheckUnit → CheckUnit) : (s.modCheck f).check = f s.check := rfl

/-! ### modAdmin -/

@[simp] theorem modAdmin_now (f : AdminUnit → AdminUnit) : (s.modAdmin f).now = s.now := rfl
@[simp] theorem modAdmin_pending (f : AdminUnit → AdminUnit) : (s.modAdmin f).pending = s.pending := rfl
@[simp] theorem modAdmin_pins (f : AdminUnit → AdminUnit) : (s.modAdmin f).pins = s.pins := rfl
@[simp] theorem modAdmin_admin (f : AdminUnit → AdminUnit) : (s.modAdmin f).admin = f s.admin := rfl
@[simp] theorem modAdmin_trunk (f : AdminUnit → AdminUnit) : (s.modAdmin f).trunk = s.trunk := rfl
@[simp] theorem modAdmin_receipts (f : AdminUnit → AdminUnit) : (s.modAdmin f).receipts = s.receipts := rfl
@[simp] theorem modAdmin_transmissions (f : AdminUnit → AdminUnit) : (s.modAdmin f).transmissions = s.transmissions := rfl
@[simp] theorem modAdmin_ports (f : AdminUnit → AdminUnit) : (s.modAdmin f).ports = s.ports := rfl
@[simp] theorem modAdmin_pool (f : AdminUnit → AdminUnit) : (s.modAdmin f).pool = s.pool := rfl
@[simp] theorem modAdmin_memory (f : AdminUnit → AdminUnit) : (s.modAdmin f).memory = s.memory := rfl
@[simp] theorem modAdmin_directory (f : AdminUnit → AdminUnit) : (s.modAdmin f).directory = s.directory := rfl
@[simp] theorem modAdmin_engine (f : AdminUnit → AdminUnit) : (s.modAdmin f).engine = s.engine := rfl
@[simp] theorem modAdmin_lend (f : AdminUnit → AdminUnit) : (s.modAdmin f).lend = s.lend := rfl
@[simp] theorem modAdmin_spool (f : AdminUnit → AdminUnit) : (s.modAdmin f).spool = s.spool := rfl
@[simp] theorem modAdmin_health (f : AdminUnit → AdminUnit) : (s.modAdmin f).health = s.health := rfl
@[simp] theorem modAdmin_check (f : AdminUnit → AdminUnit) : (s.modAdmin f).check = s.check := rfl

/-! ### Reading back -/

@[simp] theorem sides_get_set_same {α : Type} (v : Sides α) (x : Side) (a : α) : Sides.get (Sides.set v x a) x = a := by
  cases x <;> rfl

theorem sides_get_set_other {α : Type} (v : Sides α) {x y : Side} (h : y ≠ x) (a : α) :
    Sides.get (Sides.set v x a) y = Sides.get v y := by
  cases x <;> cases y <;> first | rfl | exact absurd rfl h

@[simp] theorem unit_modUnit_same (x : Side) (f : TrunkUnit → TrunkUnit) : (s.modUnit x f).unit x = f (s.unit x) :=
  sides_get_set_same _ _ _

theorem unit_modUnit_other {x y : Side} (h : y ≠ x) (f : TrunkUnit → TrunkUnit) : (s.modUnit x f).unit y = s.unit y :=
  sides_get_set_other _ h _

@[simp] theorem side_modSide_same (x : Side) (f : SideHealth → SideHealth) : (s.modSide x f).side x = f (s.side x) :=
  sides_get_set_same _ _ _

theorem side_modSide_other {x y : Side} (h : y ≠ x) (f : SideHealth → SideHealth) : (s.modSide x f).side y = s.side y :=
  sides_get_set_other _ h _

@[simp] theorem port_modPort_same (p : PortId) (f : Port → Port) : (s.modPort p f).port p = f (s.port p) := by
  simp [State.port, State.modPort]

theorem port_modPort_other {p q : PortId} (h : q ≠ p) (f : Port → Port) : (s.modPort p f).port q = s.port q := by
  simp only [State.port, State.modPort, Fin.getElem_fin]
  exact Vector.getElem_set_ne _ _ (fun e => h (Fin.ext e.symm))

/-! ### What the derived readings rest on -/

@[simp] theorem modUnit_port (x : Side) (f : TrunkUnit → TrunkUnit) (q : PortId) : (s.modUnit x f).port q = s.port q := rfl
@[simp] theorem modUnit_side (x : Side) (f : TrunkUnit → TrunkUnit) (y : Side) : (s.modUnit x f).side y = s.side y := rfl
@[simp] theorem modUnit_cfg (x : Side) (f : TrunkUnit → TrunkUnit) : (s.modUnit x f).cfg = s.cfg := rfl
@[simp] theorem modUnit_running (x : Side) (f : TrunkUnit → TrunkUnit) : (s.modUnit x f).running = s.running := rfl
@[simp] theorem modUnit_loading (x : Side) (f : TrunkUnit → TrunkUnit) : (s.modUnit x f).loading = s.loading := rfl
@[simp] theorem modUnit_started (x : Side) (f : TrunkUnit → TrunkUnit) : (s.modUnit x f).started = s.started := rfl
@[simp] theorem modUnit_entry (x : Side) (f : TrunkUnit → TrunkUnit) (i : EntryNo) : (s.modUnit x f).entry i = s.entry i := rfl
@[simp] theorem modUnit_boundNumber (x : Side) (f : TrunkUnit → TrunkUnit) (i : EntryNo) : (s.modUnit x f).boundNumber i = s.boundNumber i := rfl
@[simp] theorem modUnit_peer (x : Side) (f : TrunkUnit → TrunkUnit) (j : RosterNo) : (s.modUnit x f).peer j = s.peer j := rfl
@[simp] theorem modUnit_dir (x : Side) (f : TrunkUnit → TrunkUnit) (n : Byte) : (s.modUnit x f).dir n = s.dir n := rfl
@[simp] theorem modUnit_job (x : Side) (f : TrunkUnit → TrunkUnit) (k : Slot) : (s.modUnit x f).job k = s.job k := rfl
@[simp] theorem modUnit_joined (x : Side) (f : TrunkUnit → TrunkUnit) (y : Side) : (s.modUnit x f).joined y = s.joined y := rfl
@[simp] theorem modUnit_joinedSides (x : Side) (f : TrunkUnit → TrunkUnit) : (s.modUnit x f).joinedSides = s.joinedSides := rfl
@[simp] theorem modPort_unit (p : PortId) (f : Port → Port) (y : Side) : (s.modPort p f).unit y = s.unit y := rfl
@[simp] theorem modPort_side (p : PortId) (f : Port → Port) (y : Side) : (s.modPort p f).side y = s.side y := rfl
@[simp] theorem modPort_cfg (p : PortId) (f : Port → Port) : (s.modPort p f).cfg = s.cfg := rfl
@[simp] theorem modPort_running (p : PortId) (f : Port → Port) : (s.modPort p f).running = s.running := rfl
@[simp] theorem modPort_loading (p : PortId) (f : Port → Port) : (s.modPort p f).loading = s.loading := rfl
@[simp] theorem modPort_started (p : PortId) (f : Port → Port) : (s.modPort p f).started = s.started := rfl
@[simp] theorem modPort_entry (p : PortId) (f : Port → Port) (i : EntryNo) : (s.modPort p f).entry i = s.entry i := rfl
@[simp] theorem modPort_boundNumber (p : PortId) (f : Port → Port) (i : EntryNo) : (s.modPort p f).boundNumber i = s.boundNumber i := rfl
@[simp] theorem modPort_peer (p : PortId) (f : Port → Port) (j : RosterNo) : (s.modPort p f).peer j = s.peer j := rfl
@[simp] theorem modPort_dir (p : PortId) (f : Port → Port) (n : Byte) : (s.modPort p f).dir n = s.dir n := rfl
@[simp] theorem modPort_job (p : PortId) (f : Port → Port) (k : Slot) : (s.modPort p f).job k = s.job k := rfl
@[simp] theorem modPort_joined (p : PortId) (f : Port → Port) (y : Side) : (s.modPort p f).joined y = s.joined y := rfl
@[simp] theorem modPort_joinedSides (p : PortId) (f : Port → Port) : (s.modPort p f).joinedSides = s.joinedSides := rfl
@[simp] theorem modSide_unit (x : Side) (f : SideHealth → SideHealth) (y : Side) : (s.modSide x f).unit y = s.unit y := rfl
@[simp] theorem modSide_port (x : Side) (f : SideHealth → SideHealth) (q : PortId) : (s.modSide x f).port q = s.port q := rfl
@[simp] theorem modSide_cfg (x : Side) (f : SideHealth → SideHealth) : (s.modSide x f).cfg = s.cfg := rfl
@[simp] theorem modSide_running (x : Side) (f : SideHealth → SideHealth) : (s.modSide x f).running = s.running := rfl
@[simp] theorem modSide_loading (x : Side) (f : SideHealth → SideHealth) : (s.modSide x f).loading = s.loading := rfl
@[simp] theorem modSide_started (x : Side) (f : SideHealth → SideHealth) : (s.modSide x f).started = s.started := rfl
@[simp] theorem modSide_entry (x : Side) (f : SideHealth → SideHealth) (i : EntryNo) : (s.modSide x f).entry i = s.entry i := rfl
@[simp] theorem modSide_boundNumber (x : Side) (f : SideHealth → SideHealth) (i : EntryNo) : (s.modSide x f).boundNumber i = s.boundNumber i := rfl
@[simp] theorem modSide_peer (x : Side) (f : SideHealth → SideHealth) (j : RosterNo) : (s.modSide x f).peer j = s.peer j := rfl
@[simp] theorem modSide_dir (x : Side) (f : SideHealth → SideHealth) (n : Byte) : (s.modSide x f).dir n = s.dir n := rfl
@[simp] theorem modSide_job (x : Side) (f : SideHealth → SideHealth) (k : Slot) : (s.modSide x f).job k = s.job k := rfl
@[simp] theorem modPool_unit (f : Pool → Pool) (y : Side) : (s.modPool f).unit y = s.unit y := rfl
@[simp] theorem modPool_port (f : Pool → Pool) (q : PortId) : (s.modPool f).port q = s.port q := rfl
@[simp] theorem modPool_side (f : Pool → Pool) (y : Side) : (s.modPool f).side y = s.side y := rfl
@[simp] theorem modPool_cfg (f : Pool → Pool) : (s.modPool f).cfg = s.cfg := rfl
@[simp] theorem modPool_running (f : Pool → Pool) : (s.modPool f).running = s.running := rfl
@[simp] theorem modPool_loading (f : Pool → Pool) : (s.modPool f).loading = s.loading := rfl
@[simp] theorem modPool_started (f : Pool → Pool) : (s.modPool f).started = s.started := rfl
@[simp] theorem modPool_entry (f : Pool → Pool) (i : EntryNo) : (s.modPool f).entry i = s.entry i := rfl
@[simp] theorem modPool_boundNumber (f : Pool → Pool) (i : EntryNo) : (s.modPool f).boundNumber i = s.boundNumber i := rfl
@[simp] theorem modPool_peer (f : Pool → Pool) (j : RosterNo) : (s.modPool f).peer j = s.peer j := rfl
@[simp] theorem modPool_dir (f : Pool → Pool) (n : Byte) : (s.modPool f).dir n = s.dir n := rfl
@[simp] theorem modPool_job (f : Pool → Pool) (k : Slot) : (s.modPool f).job k = s.job k := rfl
@[simp] theorem modPool_joined (f : Pool → Pool) (y : Side) : (s.modPool f).joined y = s.joined y := rfl
@[simp] theorem modPool_joinedSides (f : Pool → Pool) : (s.modPool f).joinedSides = s.joinedSides := rfl
@[simp] theorem modEngine_unit (f : Forwarding → Forwarding) (y : Side) : (s.modEngine f).unit y = s.unit y := rfl
@[simp] theorem modEngine_port (f : Forwarding → Forwarding) (q : PortId) : (s.modEngine f).port q = s.port q := rfl
@[simp] theorem modEngine_side (f : Forwarding → Forwarding) (y : Side) : (s.modEngine f).side y = s.side y := rfl
@[simp] theorem modEngine_cfg (f : Forwarding → Forwarding) : (s.modEngine f).cfg = s.cfg := rfl
@[simp] theorem modEngine_running (f : Forwarding → Forwarding) : (s.modEngine f).running = s.running := rfl
@[simp] theorem modEngine_loading (f : Forwarding → Forwarding) : (s.modEngine f).loading = s.loading := rfl
@[simp] theorem modEngine_started (f : Forwarding → Forwarding) : (s.modEngine f).started = s.started := rfl
@[simp] theorem modEngine_entry (f : Forwarding → Forwarding) (i : EntryNo) : (s.modEngine f).entry i = s.entry i := rfl
@[simp] theorem modEngine_boundNumber (f : Forwarding → Forwarding) (i : EntryNo) : (s.modEngine f).boundNumber i = s.boundNumber i := rfl
@[simp] theorem modEngine_peer (f : Forwarding → Forwarding) (j : RosterNo) : (s.modEngine f).peer j = s.peer j := rfl
@[simp] theorem modEngine_dir (f : Forwarding → Forwarding) (n : Byte) : (s.modEngine f).dir n = s.dir n := rfl
@[simp] theorem modEngine_job (f : Forwarding → Forwarding) (k : Slot) : (s.modEngine f).job k = s.job k := rfl
@[simp] theorem modEngine_joined (f : Forwarding → Forwarding) (y : Side) : (s.modEngine f).joined y = s.joined y := rfl
@[simp] theorem modEngine_joinedSides (f : Forwarding → Forwarding) : (s.modEngine f).joinedSides = s.joinedSides := rfl
@[simp] theorem modLend_unit (f : LendUnit → LendUnit) (y : Side) : (s.modLend f).unit y = s.unit y := rfl
@[simp] theorem modLend_port (f : LendUnit → LendUnit) (q : PortId) : (s.modLend f).port q = s.port q := rfl
@[simp] theorem modLend_side (f : LendUnit → LendUnit) (y : Side) : (s.modLend f).side y = s.side y := rfl
@[simp] theorem modLend_cfg (f : LendUnit → LendUnit) : (s.modLend f).cfg = s.cfg := rfl
@[simp] theorem modLend_running (f : LendUnit → LendUnit) : (s.modLend f).running = s.running := rfl
@[simp] theorem modLend_loading (f : LendUnit → LendUnit) : (s.modLend f).loading = s.loading := rfl
@[simp] theorem modLend_started (f : LendUnit → LendUnit) : (s.modLend f).started = s.started := rfl
@[simp] theorem modLend_dir (f : LendUnit → LendUnit) (n : Byte) : (s.modLend f).dir n = s.dir n := rfl
@[simp] theorem modLend_job (f : LendUnit → LendUnit) (k : Slot) : (s.modLend f).job k = s.job k := rfl
@[simp] theorem modLend_joined (f : LendUnit → LendUnit) (y : Side) : (s.modLend f).joined y = s.joined y := rfl
@[simp] theorem modLend_joinedSides (f : LendUnit → LendUnit) : (s.modLend f).joinedSides = s.joinedSides := rfl
@[simp] theorem modSpool_unit (f : PrintSpool → PrintSpool) (y : Side) : (s.modSpool f).unit y = s.unit y := rfl
@[simp] theorem modSpool_port (f : PrintSpool → PrintSpool) (q : PortId) : (s.modSpool f).port q = s.port q := rfl
@[simp] theorem modSpool_side (f : PrintSpool → PrintSpool) (y : Side) : (s.modSpool f).side y = s.side y := rfl
@[simp] theorem modSpool_cfg (f : PrintSpool → PrintSpool) : (s.modSpool f).cfg = s.cfg := rfl
@[simp] theorem modSpool_running (f : PrintSpool → PrintSpool) : (s.modSpool f).running = s.running := rfl
@[simp] theorem modSpool_loading (f : PrintSpool → PrintSpool) : (s.modSpool f).loading = s.loading := rfl
@[simp] theorem modSpool_started (f : PrintSpool → PrintSpool) : (s.modSpool f).started = s.started := rfl
@[simp] theorem modSpool_entry (f : PrintSpool → PrintSpool) (i : EntryNo) : (s.modSpool f).entry i = s.entry i := rfl
@[simp] theorem modSpool_boundNumber (f : PrintSpool → PrintSpool) (i : EntryNo) : (s.modSpool f).boundNumber i = s.boundNumber i := rfl
@[simp] theorem modSpool_peer (f : PrintSpool → PrintSpool) (j : RosterNo) : (s.modSpool f).peer j = s.peer j := rfl
@[simp] theorem modSpool_dir (f : PrintSpool → PrintSpool) (n : Byte) : (s.modSpool f).dir n = s.dir n := rfl
@[simp] theorem modSpool_joined (f : PrintSpool → PrintSpool) (y : Side) : (s.modSpool f).joined y = s.joined y := rfl
@[simp] theorem modSpool_joinedSides (f : PrintSpool → PrintSpool) : (s.modSpool f).joinedSides = s.joinedSides := rfl
@[simp] theorem modHealth_unit (f : Health → Health) (y : Side) : (s.modHealth f).unit y = s.unit y := rfl
@[simp] theorem modHealth_port (f : Health → Health) (q : PortId) : (s.modHealth f).port q = s.port q := rfl
@[simp] theorem modHealth_cfg (f : Health → Health) : (s.modHealth f).cfg = s.cfg := rfl
@[simp] theorem modHealth_running (f : Health → Health) : (s.modHealth f).running = s.running := rfl
@[simp] theorem modHealth_loading (f : Health → Health) : (s.modHealth f).loading = s.loading := rfl
@[simp] theorem modHealth_started (f : Health → Health) : (s.modHealth f).started = s.started := rfl
@[simp] theorem modHealth_entry (f : Health → Health) (i : EntryNo) : (s.modHealth f).entry i = s.entry i := rfl
@[simp] theorem modHealth_boundNumber (f : Health → Health) (i : EntryNo) : (s.modHealth f).boundNumber i = s.boundNumber i := rfl
@[simp] theorem modHealth_peer (f : Health → Health) (j : RosterNo) : (s.modHealth f).peer j = s.peer j := rfl
@[simp] theorem modHealth_dir (f : Health → Health) (n : Byte) : (s.modHealth f).dir n = s.dir n := rfl
@[simp] theorem modHealth_job (f : Health → Health) (k : Slot) : (s.modHealth f).job k = s.job k := rfl
@[simp] theorem modCheck_unit (f : CheckUnit → CheckUnit) (y : Side) : (s.modCheck f).unit y = s.unit y := rfl
@[simp] theorem modCheck_port (f : CheckUnit → CheckUnit) (q : PortId) : (s.modCheck f).port q = s.port q := rfl
@[simp] theorem modCheck_side (f : CheckUnit → CheckUnit) (y : Side) : (s.modCheck f).side y = s.side y := rfl
@[simp] theorem modCheck_cfg (f : CheckUnit → CheckUnit) : (s.modCheck f).cfg = s.cfg := rfl
@[simp] theorem modCheck_running (f : CheckUnit → CheckUnit) : (s.modCheck f).running = s.running := rfl
@[simp] theorem modCheck_loading (f : CheckUnit → CheckUnit) : (s.modCheck f).loading = s.loading := rfl
@[simp] theorem modCheck_started (f : CheckUnit → CheckUnit) : (s.modCheck f).started = s.started := rfl
@[simp] theorem modCheck_entry (f : CheckUnit → CheckUnit) (i : EntryNo) : (s.modCheck f).entry i = s.entry i := rfl
@[simp] theorem modCheck_boundNumber (f : CheckUnit → CheckUnit) (i : EntryNo) : (s.modCheck f).boundNumber i = s.boundNumber i := rfl
@[simp] theorem modCheck_peer (f : CheckUnit → CheckUnit) (j : RosterNo) : (s.modCheck f).peer j = s.peer j := rfl
@[simp] theorem modCheck_dir (f : CheckUnit → CheckUnit) (n : Byte) : (s.modCheck f).dir n = s.dir n := rfl
@[simp] theorem modCheck_job (f : CheckUnit → CheckUnit) (k : Slot) : (s.modCheck f).job k = s.job k := rfl
@[simp] theorem modCheck_joined (f : CheckUnit → CheckUnit) (y : Side) : (s.modCheck f).joined y = s.joined y := rfl
@[simp] theorem modCheck_joinedSides (f : CheckUnit → CheckUnit) : (s.modCheck f).joinedSides = s.joinedSides := rfl
@[simp] theorem modAdmin_unit (f : AdminUnit → AdminUnit) (y : Side) : (s.modAdmin f).unit y = s.unit y := rfl
@[simp] theorem modAdmin_port (f : AdminUnit → AdminUnit) (q : PortId) : (s.modAdmin f).port q = s.port q := rfl
@[simp] theorem modAdmin_side (f : AdminUnit → AdminUnit) (y : Side) : (s.modAdmin f).side y = s.side y := rfl
@[simp] theorem modAdmin_entry (f : AdminUnit → AdminUnit) (i : EntryNo) : (s.modAdmin f).entry i = s.entry i := rfl
@[simp] theorem modAdmin_boundNumber (f : AdminUnit → AdminUnit) (i : EntryNo) : (s.modAdmin f).boundNumber i = s.boundNumber i := rfl
@[simp] theorem modAdmin_peer (f : AdminUnit → AdminUnit) (j : RosterNo) : (s.modAdmin f).peer j = s.peer j := rfl
@[simp] theorem modAdmin_dir (f : AdminUnit → AdminUnit) (n : Byte) : (s.modAdmin f).dir n = s.dir n := rfl
@[simp] theorem modAdmin_job (f : AdminUnit → AdminUnit) (k : Slot) : (s.modAdmin f).job k = s.job k := rfl
@[simp] theorem modAdmin_joined (f : AdminUnit → AdminUnit) (y : Side) : (s.modAdmin f).joined y = s.joined y := rfl
@[simp] theorem modAdmin_joinedSides (f : AdminUnit → AdminUnit) : (s.modAdmin f).joinedSides = s.joinedSides := rfl

end Sys2Proof.Machine
end

