-- ==== Sys2Proof/Laws/Calm.lean ====
section
/-! SUPPORT. What the checking of protected words does where every word is sound: nothing (R169 to R171); and what begins and ends
every event. -/

namespace Sys2Proof.Machine

/-! ### The words of sound stores -/

theorem badWords_of_sound {s : State} (h : s.check.bad = []) (key : WordLoc → Nat) (p : WordLoc → Bool) :
    s.badWords key p = [] := by simp [State.badWords, h]

theorem meetBy_of_sound {s : State} (h : s.check.bad = []) (key : WordLoc → Nat) (c : Consumer) (p : WordLoc → Bool) :
    s.meetBy key c p = s := by simp [State.meetBy, badWords_of_sound h]

theorem meet_of_sound {s : State} (h : s.check.bad = []) (c : Consumer) (p : WordLoc → Bool) : s.meet c p = s :=
  meetBy_of_sound h _ _ _

theorem meetChain_of_sound {s : State} (h : s.check.bad = []) (c : Consumer) (bs : List BlockNo) (p : WordLoc → Bool) :
    s.meetChain c bs p = s := meetBy_of_sound h _ _ _

theorem broken_of_sound {s : State} (h : s.check.bad = []) (p : WordLoc → Bool) : s.broken p = false := by
  simp [State.broken, h]

theorem freshen_of_sound {s : State} (h : s.check.bad = []) (p : WordLoc → Bool) : s.freshen p = s := by
  cases s with
  | mk _ _ _ _ _ _ _ _ _ _ _ _ _ _ _ check => cases check; simp_all [State.freshen, State.modCheck]

theorem meetSingles_of_sound {s : State} (h : s.check.bad = []) (bs : List BlockNo) (p : WordLoc → Bool) :
    s.meetSingles bs p = s := by simp [State.meetSingles, badWords_of_sound h]

theorem checkRecord_of_sound {s : State} (h : s.check.bad = []) (b : BlockNo) : s.checkRecord b = s := by
  simp [State.checkRecord, meet_of_sound h, broken_of_sound h]

theorem walk_of_sound {s : State} (h : s.check.bad = []) (hr : s.pool.recovering = false) (n : Nat) (b : BlockNo) :
    State.walk n b s = (s, some (chainBlocks s.pool.records n b)) := by
  induction n generalizing b with
  | zero => rfl
  | succ n ih =>
    simp only [State.walk, checkRecord_of_sound h, hr, chainBlocks]
    cases s.pool.records[b].next with
    | none => simp
    | some m => simp [ih m]

theorem repair_of_sound {s : State} (h : s.check.bad = []) (n : Nat) (r : Repairable) (d : List Byte) (a : List EntryNo) :
    State.repair n r d a s = s := by
  cases n with
  | zero => cases r <;> rfl
  | succ n => cases r <;> simp [State.repair, meet_of_sound h, broken_of_sound h]

theorem checkDir_of_sound {s : State} (h : s.check.bad = []) (n : Byte) : s.checkDir n = s := repair_of_sound h _ _ _ _

theorem checkEntry_of_sound {s : State} (h : s.check.bad = []) (i : EntryNo) : s.checkEntry i = s := repair_of_sound h _ _ _ _

theorem checkPeer_of_sound {s : State} (h : s.check.bad = []) (j : RosterNo) : s.checkPeer j = s := by
  simp [State.checkPeer, meet_of_sound h, broken_of_sound h]

theorem jobBroken_of_sound {s : State} (h : s.check.bad = []) (k : Slot) : s.jobBroken k = false := by
  simp [State.jobBroken, broken_of_sound h]

theorem readJob_of_sound {s : State} (h : s.check.bad = []) (k : Slot) : s.readJob k = s := by
  simp [State.readJob, State.meetJob, jobBroken_of_sound h, meet_of_sound h]

theorem checkJob_of_sound {s : State} (h : s.check.bad = []) (k : Slot) : s.checkJob k = s := by
  simp [State.checkJob, jobBroken_of_sound h, readJob_of_sound h]

theorem foldl_fixed {α : Type} (f : State → α → State) (s : State) (h : ∀ a, f s a = s) (l : List α) : l.foldl f s = s := by
  induction l with
  | nil => rfl
  | cons a l ih => simp [h, ih]

theorem readJobs_of_sound {s : State} (h : s.check.bad = []) : s.readJobs = s :=
  foldl_fixed _ s (readJob_of_sound h) _

theorem checkDirAll_of_sound {s : State} (h : s.check.bad = []) : s.checkDirAll = s :=
  foldl_fixed _ s (checkDir_of_sound h) _

theorem checkEntries_of_sound {s : State} (h : s.check.bad = []) : s.checkEntries = s :=
  foldl_fixed _ s (checkEntry_of_sound h) _

theorem checkPeers_of_sound {s : State} (h : s.check.bad = []) : s.checkPeers = s :=
  foldl_fixed _ s (checkPeer_of_sound h) _

theorem checkJobs_of_sound {s : State} (h : s.check.bad = []) : s.checkJobs = s :=
  foldl_fixed _ s (checkJob_of_sound h) _

theorem checkNamed_of_sound {s : State} (h : s.check.bad = []) (d : Decode) : s.checkNamed d = s := by
  cases d <;> simp [State.checkNamed, checkEntry_of_sound h]

theorem checkRequester_of_sound {s : State} (h : s.check.bad = []) (r : Requester) : s.checkRequester r = s := by
  cases r with
  | station n => rfl
  | node p i =>
    simp only [State.checkRequester]
    cases (s.port p).nodes.find? (fun n => n.ident == i) with
    | none => rfl
    | some n => simp only [checkEntry_of_sound h]; split <;> rfl

theorem checkHead_of_sound {s : State} (h : s.check.bad = []) : s.checkHead = s := by
  unfold State.checkHead; split <;> simp [checkJob_of_sound h]

/-! ### Writes over sound stores -/

theorem setDir_of_sound {s : State} (h : s.check.bad = []) (n : Byte) (r : Option DirRecord) :
    s.setDir n r = { s with directory := { s.directory with records := s.directory.records.set n.toNat r n.isLt } } :=
  freshen_of_sound (by simpa using h) _

theorem setEntry_of_sound {s : State} (h : s.check.bad = []) (i : EntryNo) (e : Option AliasEntry) :
    s.setEntry i e = s.modLend (fun l => { l with table := l.table.set i e }) := freshen_of_sound (by simpa using h) _

theorem setPeer_of_sound {s : State} (h : s.check.bad = []) (j : RosterNo) (e : Option RosterEntry) :
    s.setPeer j e = s.modLend (fun l => { l with roster := l.roster.set j e }) := freshen_of_sound (by simpa using h) _

theorem setJob_of_sound {s : State} (h : s.check.bad = []) (k : Slot) (j : Option Job) :
    s.setJob k j = s.modSpool (fun p => { p with jobs := p.jobs.set k j }) := freshen_of_sound (by simpa using h) _

theorem link_of_sound {s : State} (h : s.check.bad = []) (b : BlockNo) (n : Option BlockNo) :
    s.link b n = s.modPool (fun p => { p with records := p.records.set b { p.records[b] with next := n } }) :=
  freshen_of_sound (by simpa using h) _

theorem markEnd_of_sound {s : State} (h : s.check.bad = []) (b : BlockNo) :
    s.markEnd b = s.modPool (fun p => { p with records := p.records.set b { p.records[b] with endMark := true } }) :=
  freshen_of_sound (by simpa using h) _

theorem freeBlock_of_sound {s : State} (h : s.check.bad = []) (b : BlockNo) :
    s.freeBlock b = s.modPool (fun p => (p.leaveClass b).append b) := freshen_of_sound (by simpa using h) _

theorem store_of_sound {s : State} (h : s.check.bad = []) (a : Nat) (v : Byte) :
    s.store a v = { s with memory := writeByte s.memory a v } := by
  cases s with
  | mk _ _ _ _ _ _ _ _ _ _ _ _ _ _ _ check => cases check; simp_all [State.store]

theorem endTest_of_untested {s : State} (b : BlockNo) (h : s.underTest b = false) : s.endTest b = s := by
  simp only [State.underTest, Bool.or_eq_false_iff] at h
  have hw : s.check.waiting.filter (fun t => decide (t.block ≠ b)) = s.check.waiting := by
    apply List.filter_eq_self.mpr
    intro t ht
    have := List.any_eq_false.mp h.2 t ht
    simpa using this
  have hs : s.modCheck (fun c => { c with waiting := c.waiting.filter (fun t => decide (t.block ≠ b)) }) = s := by
    simp only [State.modCheck]
    rw [hw]
  unfold State.endTest
  simp only [hs]
  cases ht : s.check.test with
  | none => rfl
  | some p =>
    have := h.1
    simp [ht] at this
    simp [this]

/-- The head of the free list, taken from a calm pool for a tag (R57, R58). -/
theorem takeHead_of_sound {s : State} (h : s.check.bad = []) (b : BlockNo) (o : Origin) (hu : s.underTest b = false) :
    s.takeHead b o = { s with pool := s.pool.taken b o } := by
  have e : ∀ q : State, q.check = s.check → q.underTest b = false := by
    intro q hq; simpa [State.underTest, hq] using hu
  unfold State.takeHead
  simp only []
  rw [freshen_of_sound (by simpa using h), endTest_of_untested (s := s.modPool _) b (e _ rfl)]
  simp only [State.modPool, Pool.taken]
  cases (s.pool.records[b]).next <;> rfl

/-! ### The beginning and the end of an event -/

/-- A side with no inverted check going out has none to settle. -/
theorem settleCut_of_uncut {s : State} {x : Side} (h : (s.unit x).uncut) : s.settleCut x = s := by
  unfold State.settleCut
  split
  · rename_i a b hc; exact absurd hc (h a b)
  · rfl

theorem arrive_plain {s : State} {e : Moment} (hu : e.upsets = []) (hl : s.now ≤ e.time) (hw : s.trunk.west.uncut)
    (he : s.trunk.east.uncut) : s.arrive e = { s with now := e.time } := by
  simp only [State.arrive, hu, List.foldl_nil, Nat.max_eq_right hl]
  rw [settleCut_of_uncut (x := .west) (by simpa [State.unit, Sides.get] using hw),
    settleCut_of_uncut (x := .east) (by simpa [State.unit, Sides.get] using he)]

theorem drain_of_quiet {s : State} (h : s.spool.outbox = []) (n : Nat) : State.drain n s = s := by
  cases n with
  | zero => rfl
  | succ n => simp [State.drain, h]

theorem settleSide_of_not_partitioning {s : State} (x : Side) (h : (s.side x).state ≠ .partitioning) : s.settleSide x = s := by
  simp [State.settleSide, h]

/-- A PARTITIONING side whose attempt is in flight is left as it is (R38). -/
theorem settleSide_of_resting {s : State} (h : s.Resting) (x : Side) : s.settleSide x = s := by
  unfold State.settleSide
  split
  · rename_i hc; simp [h.inFlight x hc.1] at hc
  · rfl

/-- A state with no side left to settle is as it stands at an event's end. -/
theorem finish_of_resting {s : State} (h : s.Resting) : s.finish = s := by
  simp [State.finish, State.settleSides, settleSide_of_resting h, drain_of_quiet h.noNotice]

/-- No side PARTITIONING, none is left to settle. -/
theorem State.Settled.resting {s : State} (h : s.Settled) : s.Resting where
  inFlight x hx := by
    cases x with
    | west => exact absurd (by simpa [State.side, Sides.get] using hx) h.west
    | east => exact absurd (by simpa [State.side, Sides.get] using hx) h.east
  noNotice := h.noNotice

/-- A calm state is sound. -/
theorem State.Calm.toSound {s : State} (h : s.Calm) : s.Sound :=
  { h.toSettled.resting with sound := h.sound, steady := h.steady }

/-- A settled state is as it stands at an event's end. -/
theorem finish_of_settled {s : State} (h : s.Settled) : s.finish = s := finish_of_resting h.resting

/-- An inverted check that has gone out leaves the unit silent from its end, and a settled state otherwise as it is. -/
theorem settleCut_over {s : State} {x : Side} {sent : Nat} {ends : Time} (h : (s.unit x).sending = .cutCheck sent ends)
    (he : ends ≤ s.now) (hs : (s.modUnit x (fun u => u.silent ends)).Settled) :
    s.settleCut x = s.modUnit x (fun u => u.silent ends) := by
  simp [State.settleCut, h, he, finish_of_settled hs]

/-- One that is still going out is left to. -/
theorem settleCut_under_way {s : State} {x : Side} {sent : Nat} {ends : Time} (h : (s.unit x).sending = .cutCheck sent ends)
    (he : s.now < ends) : s.settleCut x = s := by
  simp [State.settleCut, h, Nat.not_le.mpr he]

/-- A command whose body leaves no side to settle answers with what it leaves. -/
theorem event_of_resting {s : State} {e : Moment} {body : State → State} (h : (body (s.arrive e)).Resting) :
    s.event e body = .next (body (s.arrive e)) := by simp [State.event, finish_of_resting h]

theorem event_of_settled {s : State} {e : Moment} {body : State → State} (h : (body (s.arrive e)).Settled) :
    s.event e body = .next (body (s.arrive e)) := by simp [State.event, finish_of_settled h]

end Sys2Proof.Machine
end

