-- ==== Sys2Proof/Laws/Memory.lean ====
section
/-! SUPPORT. Block memory: a write reads back, leaves every other byte alone and keeps the canonical form; and what the chain
operations over it do. -/

namespace Sys2Proof.Machine

/-! ### One byte -/

theorem risingFrom_mono {lo lo' : Nat} {m : List Host.Cell} (h : lo' ≤ lo) (hm : risingFrom lo m = true) :
    risingFrom lo' m = true := by
  cases m with
  | nil => rfl
  | cons c m => obtain ⟨a, v⟩ := c; simp [risingFrom] at hm ⊢; exact ⟨⟨by omega, hm.1.2⟩, hm.2⟩

/-- Below a rising list nothing is listed. -/
theorem readByte_below {lo a : Nat} {m : List Host.Cell} (h : risingFrom lo m = true) (ha : a < lo) : readByte m a = 0 := by
  induction m generalizing lo with
  | nil => rfl
  | cons c m ih =>
    obtain ⟨b, v⟩ := c
    simp [risingFrom] at h
    have hne : a ≠ b := by omega
    simp only [readByte, hne, if_false]
    exact ih h.2 (by omega)

theorem writeByte_rising {lo : Nat} {m : List Host.Cell} (a : Nat) (v : Byte) (h : risingFrom lo m = true) (ha : lo ≤ a) :
    risingFrom lo (writeByte m a v) = true := by
  induction m generalizing lo with
  | nil => by_cases hv : v = 0#8 <;> simp [writeByte, risingFrom, hv, ha]
  | cons c m ih =>
    obtain ⟨b, w⟩ := c
    have h' := h
    simp [risingFrom] at h'
    simp only [writeByte]
    split
    · split
      · exact h
      · rename_i hab hv
        have hv' : ¬v = 0#8 := hv
        simp [risingFrom, hv', ha, h']
        omega
    · split
      · split
        · exact risingFrom_mono (by omega) h'.2
        · rename_i hab hv
          have hv' : ¬v = 0#8 := hv
          subst hab
          simp [risingFrom, hv', ha, h'.2]
      · rename_i h1 h2
        simp [risingFrom, h']
        exact ih h'.2 (by omega)

/-- Every write keeps the canonical form. -/
theorem writeByte_wf {m : List Host.Cell} (a : Nat) (v : Byte) (h : Memory.wf m = true) : Memory.wf (writeByte m a v) = true :=
  writeByte_rising a v h (Nat.zero_le _)

/-- A byte written reads back. -/
theorem readByte_writeByte_same {m : List Host.Cell} (a : Nat) (v : Byte) (h : Memory.wf m = true) :
    readByte (writeByte m a v) a = v := by
  suffices hs : ∀ lo, risingFrom lo m = true → readByte (writeByte m a v) a = v from hs 0 h
  clear h
  induction m with
  | nil => intro lo _; by_cases hv : v = 0#8 <;> simp [writeByte, readByte, hv]
  | cons c m ih =>
    obtain ⟨b, w⟩ := c
    intro lo h
    simp [risingFrom] at h
    simp only [writeByte]
    split
    · rename_i hab
      split
      · rename_i hv
        have : a ≠ b := by omega
        simp [readByte, this, hv, readByte_below h.2 (by omega : a < b + 1)]
      · simp [readByte]
    · split
      · rename_i hab
        split
        · rename_i hv; simp [hv, readByte_below h.2 (by omega : a < b + 1)]
        · simp [readByte]
      · rename_i h1 h2; simp [readByte, h2, ih _ h.2]

/-- A write leaves every other byte alone. -/
theorem readByte_writeByte_other {m : List Host.Cell} {a a' : Nat} (v : Byte) (ha : a' ≠ a) :
    readByte (writeByte m a v) a' = readByte m a' := by
  induction m with
  | nil => by_cases hv : v = 0#8 <;> simp [writeByte, readByte, hv, ha]
  | cons c m ih =>
    obtain ⟨b, w⟩ := c
    simp only [writeByte]
    split
    · split
      · rfl
      · simp [readByte, ha]
    · split
      · rename_i h1 h2
        subst h2
        split <;> simp [readByte, ha]
      · by_cases hb : a' = b <;> simp [readByte, hb, ih]

theorem store_wf {s : State} (a : Nat) (v : Byte) (h : Memory.wf s.memory = true) : Memory.wf (s.store a v).memory = true :=
  writeByte_wf a v h

/-! ### Chains of bytes -/

/-- What storing bytes into a chain does to memory keeps the canonical form. -/
theorem storeChain_wf (bs : List BlockNo) (i : Nat) (bytes : List Byte) {s : State} (h : Memory.wf s.memory = true) :
    Memory.wf (State.storeChain bs i bytes s).memory = true := by
  induction bytes generalizing i s with
  | nil => exact h
  | cons v rest ih =>
    simp only [State.storeChain]
    split
    · exact ih (i + 1) (store_wf _ _ h)
    · exact h

theorem beginTest_wf {s : State} (t : TestTarget) (h : Memory.wf s.memory = true) : Memory.wf (s.beginTest t).memory = true :=
  store_wf _ _ (store_wf _ _ (store_wf _ _ (store_wf _ _ h)))

theorem reset_memory_wf : Memory.wf State.reset.memory = true := rfl

/-- Storing into a chain over sound stores changes memory alone. -/
theorem storeChain_of_sound (bs : List BlockNo) (i : Nat) (bytes : List Byte) {s : State} (h : s.check.bad = []) :
    State.storeChain bs i bytes s = { s with memory := (State.storeChain bs i bytes s).memory } := by
  induction bytes generalizing i s with
  | nil => rfl
  | cons v rest ih =>
    simp only [State.storeChain]
    split
    · rename_i a ha
      rw [store_of_sound h]
      have hb : (⟨s.now, s.pending, s.pins, s.admin, s.trunk, s.receipts, s.transmissions, s.ports, s.pool,
        writeByte s.memory a v, s.directory, s.engine, s.lend, s.spool, s.health, s.check⟩ : State).check.bad = [] := h
      exact ih (i + 1) hb
    · rfl

/-- Bytes stored within one block stand there, and every other byte of memory is as before. -/
theorem storeChain_written (b : BlockNo) (i : Nat) (bytes : List Byte) {s : State} (hm : Memory.wf s.memory = true)
    (hi : i + bytes.length ≤ 128) : Written b i bytes s.memory (State.storeChain [b] i bytes s).memory := by
  induction bytes generalizing i s with
  | nil => exact ⟨by simp, fun _ _ => rfl⟩
  | cons v rest ih =>
    simp only [List.length_cons] at hi
    have hq : i / 128 = 0 := by omega
    have hr : i % 128 = i := by omega
    have ha : chainAddr [b] i = some (blockAddr b i) := by simp [chainAddr, hq, hr]
    simp only [State.storeChain, ha]
    obtain ⟨hin, hout⟩ := ih (i + 1) (s := s.store (blockAddr b i) v) (store_wf _ _ hm) (by omega)
    constructor
    · intro k w hk
      cases k with
      | zero =>
        simp at hk
        subst hk
        rw [hout _ (Or.inl (by simp [blockAddr]))]
        exact readByte_writeByte_same _ _ hm
      | succ k =>
        have := hin k w (by simpa using hk)
        simpa [Nat.add_assoc, Nat.add_comm 1] using this
    · intro a h
      simp only [List.length_cons, blockAddr] at h
      rw [hout a (by simp only [blockAddr]; omega)]
      exact readByte_writeByte_other _ (by simp only [blockAddr]; omega)

/-- A retire test that begins leaves zeros in its word, and every other byte of memory as before. -/
theorem beginTest_written {s : State} (t : TestTarget) (hm : Memory.wf s.memory = true) (hw : t.word < 32) :
    Written t.block (4 * t.word) [0, 0, 0, 0] s.memory (s.beginTest t).memory := by
  have h : (s.beginTest t).memory = (State.storeChain [t.block] (4 * t.word) [0, 0, 0, 0] s).memory := by
    have ha : ∀ k, k < 4 → chainAddr [t.block] (4 * t.word + k) = some (blockAddr t.block (4 * t.word) + k) := by
      intro k hk
      have hq : (4 * t.word + k) / 128 = 0 := by omega
      have hr : (4 * t.word + k) % 128 = 4 * t.word + k := by omega
      simp [chainAddr, hq, hr, blockAddr, Nat.add_assoc]
    have h0 := ha 0 (by omega)
    simp only [Nat.add_zero] at h0
    simp only [State.storeChain, h0, ha 1 (by omega), ha 2 (by omega), ha 3 (by omega), Nat.add_assoc, Nat.reduceAdd]
    rfl
  rw [h]
  exact storeChain_written _ _ _ hm (by simp; omega)

/-- Bytes stored within one block are loaded from it again. -/
theorem loadChain_written {b : BlockNo} {i : Nat} {bytes : List Byte} {m : List Host.Cell} {s : State}
    (h : Written b i bytes m s.memory) (hi : i + bytes.length ≤ 128) : s.loadChain [b] i bytes.length = bytes := by
  apply List.ext_getElem
  · simp [State.loadChain]
  · intro k h1 h2
    have hk : k < bytes.length := h2
    have hq : (i + k) / 128 = 0 := by omega
    have hr : (i + k) % 128 = i + k := by omega
    simp only [State.loadChain, List.getElem_map, List.getElem_range, chainAddr, hq, hr]
    exact h.inside k _ (List.getElem?_eq_getElem hk)

end Sys2Proof.Machine
end

