-- ==== Sys2Proof/Laws/Shared.lean ====
section
/-! SUPPORT. What the operations that many commands share can do, said once for each: placing and completing a transmit record,
counting its outcome, asking for blocks, releasing them, writing into a chain, meeting words that are not sound, rebuilding a lost
job record, and beginning a star frame. -/

namespace Sys2Proof.Machine

/-! ### Words that are not sound: only the Check Unit's own items change -/

/-- A corrected word changes the Check Unit alone (R170). -/
theorem noteCorrected_outside (s : State) (w : BadWord) : ∃ k, s.noteCorrected w = { s with check := k } := ⟨_, rfl⟩

/-- A recorded error changes the Check Unit alone (R171). -/
theorem latch_outside (s : State) (c : Consumer) (loc : WordLoc) (syn : BitVec 7) :
    ∃ k, s.latch c loc syn = { s with check := k } := ⟨_, rfl⟩

/-- A word met by its consumer changes the Check Unit alone. -/
theorem meetWord_outside (s : State) (c : Consumer) (w : BadWord) : ∃ k, s.meetWord c w = { s with check := k } := by
  unfold State.meetWord
  cases w.damage with
  | single => exact noteCorrected_outside s w
  | uncorrectable syn => exact latch_outside s c w.loc syn

/-- An uncorrectable word met while the capture record holds an error is counted and not captured (R171). -/
theorem latch_captured {s : State} {k : Capture} (h : s.check.capture = some k) (c : Consumer) (loc : WordLoc) (syn : BitVec 7) :
    s.latch c loc syn = s.modCheck (fun q => { q with further := satUp 255 q.further }) := by
  simp [State.latch, State.modCheck, h]

/-- An uncorrectable word met while the capture record is empty is captured (R171). -/
theorem latch_empty {s : State} (h : s.check.capture = none) (c : Consumer) (loc : WordLoc) (syn : BitVec 7) :
    s.latch c loc syn = s.modCheck (fun q => { q with capture := some ⟨loc, syn, c⟩ }) := by
  simp [State.latch, State.modCheck, h]

theorem foldl_outside (f : State → BadWord → State) (h : ∀ s w, ∃ k, f s w = { s with check := k }) (l : List BadWord)
    (s : State) : ∃ k, l.foldl f s = { s with check := k } := by
  induction l generalizing s with
  | nil => exact ⟨s.check, rfl⟩
  | cons w rest ih =>
    obtain ⟨k, hk⟩ := h s w
    obtain ⟨m, hm⟩ := ih (f s w)
    exact ⟨m, by rw [List.foldl_cons, hm, hk]⟩

/-- Reading a set of words changes the Check Unit alone. -/
theorem meetBy_outside (s : State) (key : WordLoc → Nat) (c : Consumer) (p : WordLoc → Bool) :
    ∃ k, s.meetBy key c p = { s with check := k } := foldl_outside _ (fun t w => meetWord_outside t c w) _ s

/-- Meeting words touches the Check Unit alone. -/
theorem meet_outside (s : State) (c : Consumer) (p : WordLoc → Bool) : ∃ k, s.meet c p = { s with check := k } :=
  meetBy_outside s _ c p

/-- Meeting words of a chain touches the Check Unit alone. -/
theorem meetChain_outside (s : State) (c : Consumer) (bs : List BlockNo) (p : WordLoc → Bool) :
    ∃ k, s.meetChain c bs p = { s with check := k } := meetBy_outside s _ c p

/-- Writing a set of words afresh changes the Check Unit alone. -/
theorem freshen_outside (s : State) (p : WordLoc → Bool) : ∃ k, s.freshen p = { s with check := k } := ⟨_, rfl⟩

/-! ### Block memory -/

/-- Writing into a chain changes block memory and the Check Unit's knowledge of its words alone. -/
theorem storeChain_outside (bs : List BlockNo) (i : Nat) (bytes : List Byte) (s : State) :
    ∃ m k, State.storeChain bs i bytes s = { s with memory := m, check := k } := by
  induction bytes generalizing i s with
  | nil => exact ⟨s.memory, s.check, rfl⟩
  | cons v rest ih =>
    simp only [State.storeChain]
    split
    · rename_i a _
      obtain ⟨m, k, h⟩ := ih (i + 1) (s.store a v)
      exact ⟨m, k, by rw [h]; rfl⟩
    · exact ⟨s.memory, s.check, rfl⟩

/-! ### Placing a transmit record (R18, R51, R104) -/

/-- A placement on a side is taken, with the record in its class's place and the proxy accounting, exactly when the queue has room, the
side is JOINED and no recovery is under way; otherwise nothing changes. -/
theorem placeTrunk_cases (s : State) (x : Side) (r : TrunkRecord) :
    ((s.unit x).queue.length < Config.sideQueue ∧ (s.side x).state = .joined ∧ s.pool.recovering = false ∧
      s.placeTrunk x r = ((s.modUnit x (fun u => { u with queue := insertByClass u.queue r })).countPlaced r, true)) ∨
    (¬((s.unit x).queue.length < Config.sideQueue ∧ (s.side x).state = .joined ∧ s.pool.recovering = false) ∧
      s.placeTrunk x r = (s, false)) := by
  unfold State.placeTrunk
  split
  · rename_i h
    exact .inl ⟨h.1, h.2.1, h.2.2, rfl⟩
  · rename_i h
    exact .inr ⟨h, rfl⟩

/-- A placement on a star port is taken at the tail exactly when the queue has room, the port is UP and no recovery is under way;
otherwise nothing changes. -/
theorem placeStar_cases (s : State) (p : PortId) (r : StarRecord) :
    ((s.port p).queue.length < Config.starQueue ∧ (s.port p).state = .up ∧ s.pool.recovering = false ∧
      s.placeStar p r = ((s.modPort p (fun q => { q with queue := q.queue ++ [r] })).countPlaced r, true)) ∨
    (¬((s.port p).queue.length < Config.starQueue ∧ (s.port p).state = .up ∧ s.pool.recovering = false) ∧
      s.placeStar p r = (s, false)) := by
  unfold State.placeStar
  split
  · rename_i h
    exact .inl ⟨h.1, h.2.1, h.2.2, rfl⟩
  · rename_i h
    exact .inr ⟨h, rfl⟩

/-- The accounting of a placement changes the Forwarding Engine alone. -/
theorem countPlaced_outside {A : Type} (s : State) (r : TransmitRecord A) : ∃ q, s.countPlaced r = { s with engine := q } := by
  unfold State.countPlaced
  split
  · exact ⟨_, rfl⟩
  · exact ⟨s.engine, rfl⟩

/-! ### The outcome of a transmit record (R104) -/

/-- Counting an outcome changes the Forwarding Engine alone. -/
theorem countOutcome_outside {A : Type} (s : State) (r : TransmitRecord A) (o : TxOutcome) :
    ∃ q, s.countOutcome r o = { s with engine := q } := ⟨_, rfl⟩

/-- A record that was not proxy-acked leaves the proxy accounting as it was. -/
theorem countOutcome_unacked {A : Type} {r : TransmitRecord A} (h : r.proxyAcked = false) (s : State) (o : TxOutcome) :
    (s.countOutcome r o).engine.proxy = s.engine.proxy := by
  simp [State.countOutcome, State.modEngine, h]

/-- The head record of a side completes: it leaves the queue, is counted, and its chain is released (R26). -/
theorem completeHead_cons {s : State} {x : Side} {r : TrunkRecord} {rest : List TrunkRecord} (h : (s.unit x).queue = r :: rest)
    (o : TxOutcome) :
    s.completeHead x o = ((s.modUnit x (fun u => { u with queue := rest })).countOutcome r o).releaseFrom r.head := by
  simp [State.completeHead, h]

/-- With no record, there is none to complete. -/
theorem completeHead_nil {s : State} {x : Side} (h : (s.unit x).queue = []) (o : TxOutcome) : s.completeHead x o = s := by
  simp [State.completeHead, h]

/-! ### Asking for blocks (R58) -/

/-- A refused request raises the counter of its cause and takes nothing. -/
theorem requestBlock_refused {s : State} {o : Origin} {k : PoolCount} (h : s.refusal 1 o = some k) (c : Option Chain) :
    s.requestBlock o c = (s.raisePool k, none) := by
  simp [State.requestBlock, h]

/-- A refused whole-chain request raises the counter of its cause and takes nothing. -/
theorem requestChain_refused {s : State} {n : Nat} {o : Origin} {k : PoolCount} (h : s.refusal n o = some k) :
    s.requestChain n o = (s.raisePool k, none) := by
  simp [State.requestChain, h]

/-- During recovery every request is refused as NO-FREE (R64). -/
theorem refusal_recovering {s : State} (h : s.pool.recovering = true) (n : Nat) (o : Origin) : s.refusal n o = some .noFree := by
  simp [State.refusal, h]

/-- During recovery the pool acts on no release (R64). -/
theorem releaseFrom_recovering {s : State} (h : s.pool.recovering = true) (b : BlockNo) : s.releaseFrom b = s := by
  simp [State.releaseFrom, h]

/-- A release over sound stores changes the pool alone (R60). -/
theorem releaseWalk_of_sound (n : Nat) (b : BlockNo) {s : State} (h : s.check.bad = []) :
    ∃ q, State.releaseWalk n b s = { s with pool := q } := by
  induction n generalizing b s with
  | zero => exact ⟨s.pool, rfl⟩
  | succ n ih =>
    simp only [State.releaseWalk, checkRecord_of_sound h]
    split
    · exact ⟨s.pool, rfl⟩
    · have hb : ∃ q, s.releaseBlock b = { s with pool := q } := by
        unfold State.releaseBlock
        split
        · exact ⟨_, freshen_of_sound (by simpa using h) _⟩
        · exact ⟨_, freeBlock_of_sound h b⟩
      obtain ⟨q, hq⟩ := hb
      simp only [hq]
      cases s.pool.records[b].next with
      | none => exact ⟨q, rfl⟩
      | some m =>
        obtain ⟨q', hq'⟩ := ih m (s := { s with pool := q }) h
        exact ⟨q', hq'⟩

theorem releaseFrom_of_sound {s : State} (h : s.check.bad = []) (b : BlockNo) : ∃ q, s.releaseFrom b = { s with pool := q } := by
  unfold State.releaseFrom
  split
  · exact ⟨s.pool, rfl⟩
  · exact releaseWalk_of_sound 256 b h

theorem releaseChain_of_sound {s : State} (h : s.check.bad = []) (c : Option Chain) :
    ∃ q, s.releaseChain c = { s with pool := q } := by
  cases c with
  | none => exact ⟨s.pool, rfl⟩
  | some c => exact releaseFrom_of_sound h c.first

/-- Flushing a port's queue and handing back the blocks of its reception change the pool and the engine's counts alone (R43, R51). -/
theorem portFlushed_of_sound {s : State} (h : s.check.bad = []) (p : PortId) :
    ∃ q g, s.portFlushed p = { s with pool := q, engine := g } := by
  have flushed : ∀ (l : List StarRecord) (t : State), t.check.bad = [] →
      ∃ q g, l.foldl (fun t r => (t.countOutcome r .flushed).releaseFrom r.head) t = { t with pool := q, engine := g } := by
    intro l
    induction l with
    | nil => exact fun t _ => ⟨t.pool, t.engine, rfl⟩
    | cons r l ih =>
      intro t ht
      obtain ⟨g, hg⟩ := countOutcome_outside t r .flushed
      obtain ⟨q, hq⟩ := releaseFrom_of_sound (s := { t with engine := g }) ht r.head
      obtain ⟨q', g', he⟩ := ih { t with pool := q, engine := g } ht
      exact ⟨q', g', by simp only [List.foldl_cons, hg, hq, he]⟩
  obtain ⟨q, g, hf⟩ := flushed (s.port p).queue s h
  simp only [State.portFlushed, hf]
  split
  · split
    · exact ⟨q, g, rfl⟩
    · obtain ⟨q', hq'⟩ := releaseChain_of_sound (s := { s with pool := q, engine := g }) h _
      exact ⟨q', g, hq'⟩
  · exact ⟨q, g, rfl⟩

/-- The head record of a port completes: it leaves the queue, is counted for its outcome, and its chain is released (R51). -/
theorem completePort_flushed {s : State} {p : PortId} {r : StarRecord} {rest : List StarRecord} (h : (s.port p).queue = r :: rest) :
    s.completePort p .flushed =
      (((s.modPort p (fun q => { q with queue := rest })).countOutcome r .flushed).raisePort p .flushed).releaseFrom r.head := by
  simp [State.completePort, h]

/-! ### Carrier of another station (R21, R30) -/

@[simp] theorem silent_sending (u : TrunkUnit) (t : Time) : (u.silent t).sending = .silent := rfl
@[simp] theorem silent_queue (u : TrunkUnit) (t : Time) : (u.silent t).queue = u.queue := rfl
@[simp] theorem silent_rx (u : TrunkUnit) (t : Time) : (u.silent t).rx = u.rx := rfl
@[simp] theorem silent_otherCarrier (u : TrunkUnit) (t : Time) : (u.silent t).otherCarrier = u.otherCarrier := rfl

/-- The line is idle from the moment the unit falls silent exactly when no other station's carrier is on it. -/
theorem silent_idleSince (u : TrunkUnit) (t : Time) : (u.silent t).idleSince = some t ↔ u.otherCarrier = false := by
  cases h : u.otherCarrier <;> simp [TrunkUnit.silent, h]

/-- With no such carrier its end changes nothing. -/
theorem carrierOver_none {u : TrunkUnit} (h : u.otherCarrier = false) (t : Time) : u.carrierOver t = u := by
  simp [TrunkUnit.carrierOver, h]

/-- The end of such a carrier leaves the queue, the reception and what the unit sends as they are. -/
theorem carrierOver_keeps (u : TrunkUnit) (t : Time) :
    (u.carrierOver t).queue = u.queue ∧ (u.carrierOver t).rx = u.rx ∧ (u.carrierOver t).sending = u.sending ∧
      (u.carrierOver t).otherCarrier = false := by
  unfold TrunkUnit.carrierOver
  cases h : u.otherCarrier <;> cases g : u.sending <;> simp [h, g]

/-! ### Attempts in flight (R38), and what an ANNOUNCE does to an entry (R127) -/

/-- With nothing queued an attempt is in flight exactly while one cut short is being ended on the line. -/
theorem inFlight_of_empty {u : TrunkUnit} (h : u.queue = []) : u.inFlight = u.cutting := by simp [TrunkUnit.inFlight, h]

@[simp] theorem cutToJam_cutting (u : TrunkUnit) (now : Time) (sent : Nat) (check : Time) : (u.cutToJam now sent check).cutting = true :=
  rfl
@[simp] theorem cutToJam_queue (u : TrunkUnit) (now : Time) (sent : Nat) (check : Time) : (u.cutToJam now sent check).queue = u.queue :=
  rfl

/-- An entry whose number an ANNOUNCE does not name, or that is not in use, is left as it is. -/
theorem announceEntry_unnamed {s : State} {a : Announce} {i : EntryNo}
    (h : ∀ e n, s.entry i = some e → e.phase.number = some n → a.naming n = none) (x : Side) (fuel : Nat) :
    State.announceEntry a x i fuel s = s := by
  cases fuel with
  | zero => rfl
  | succ fuel =>
    unfold State.announceEntry
    cases he : s.entry i with
    | none => rfl
    | some e =>
      cases hn : e.phase.number with
      | none => simp [hn]
      | some n => simp [hn, h e n he hn]

/-! ### A rebuilt job record and an empty range -/

/-- The record that stands for a lost job keeps every field within its range of R134. -/
theorem lostJob_ranges (cap : Nat) (now : Time) :
    (lostJob cap now).number = 0 ∧ (lostJob cap now).chain = none ∧
      1 ≤ (lostJob cap now).name.length ∧ (lostJob cap now).name.length ≤ 16 ∧
      1 ≤ (lostJob cap now).copies ∧ (lostJob cap now).copies ≤ 9 ∧
      (lostJob cap now).nextIndex ≤ cap ∧ (lostJob cap now).window = 0 ∧ (lostJob cap now).copiesLeft ≤ 9 := by
  simp only [lostJob, List.length_map, List.length_range]
  have := Nat.mod_lt (Config.lostJobField now 2) (show 0 < cap + 1 by omega)
  refine ⟨trivial, trivial, ?_, ?_, ?_, ?_, ?_, trivial, ?_⟩ <;> omega

/-- An empty range of a chain's bytes covers no word. -/
theorem chainWords_empty (bs : List BlockNo) {lo hi : Nat} (h : hi ≤ lo) (loc : WordLoc) : chainWords bs lo hi loc = false := by
  simp [chainWords, Nat.not_lt.mpr h]

/-! ### One word that is not sound -/

/-- A word outside the set is not met. -/
theorem meetBy_apart {s : State} {w : BadWord} (h : s.check.bad = [w]) {p : WordLoc → Bool} (hp : p w.loc = false)
    (key : WordLoc → Nat) (c : Consumer) : s.meetBy key c p = s := by
  simp [State.meetBy, State.badWords, h, hp]

/-- The one uncorrectable word of the set is captured (R171). -/
theorem meetBy_lone {s : State} {loc : WordLoc} {syn : BitVec 7} {t : Time} (h : s.check.bad = [⟨loc, .uncorrectable syn, t⟩])
    (hc : s.check.capture = none) {p : WordLoc → Bool} (hp : p loc = true) (key : WordLoc → Nat) (c : Consumer) :
    s.meetBy key c p = { s with check := { s.check with capture := some ⟨loc, syn, c⟩ } } := by
  have hb : s.badWords key p = [⟨loc, .uncorrectable syn, t⟩] := by simp [State.badWords, h, hp, insertWord]
  simp only [State.meetBy, hb, List.foldl_cons, List.foldl_nil, State.meetWord]
  exact latch_empty hc c loc syn

/-- Whether the one word that is not sound breaks a set of words. -/
theorem broken_lone {s : State} {w : BadWord} (h : s.check.bad = [w]) (p : WordLoc → Bool) :
    s.broken p = (p w.loc && w.isUncorrectable) := by simp [State.broken, h]

/-- A block record is read unchanged when no block record holds a word that is not sound. -/
theorem checkRecord_of_records_sound {s : State} (h : ∀ w ∈ s.check.bad, w.loc.store ≠ .blockRecords) (b : BlockNo) :
    s.checkRecord b = s := by
  have hf : ∀ w ∈ s.check.bad, itemWords .blockRecords b.val w.loc = false := fun w hw => by simp [itemWords, h w hw]
  have h1 : s.check.bad.filter (fun w => itemWords .blockRecords b.val w.loc) = [] :=
    List.filter_eq_nil_iff.mpr (fun w hw => by simp [hf w hw])
  have h2 : s.broken (itemWords .blockRecords b.val) = false := by
    simp only [State.broken, List.any_eq_false]
    intro w hw; simp [hf w hw]
  simp [State.checkRecord, State.meet, State.meetBy, State.badWords, h1, h2]

/-- A chain's blocks are walked to its end when no block record holds a word that is not sound. -/
theorem walk_of_records_sound {s : State} (h : ∀ w ∈ s.check.bad, w.loc.store ≠ .blockRecords) (hr : s.pool.recovering = false)
    (n : Nat) (b : BlockNo) : State.walk n b s = (s, some (chainBlocks s.pool.records n b)) := by
  induction n generalizing b with
  | zero => rfl
  | succ n ih =>
    simp only [State.walk, checkRecord_of_records_sound h, hr, chainBlocks]
    cases hn : s.pool.records[b].next with
    | none => simp
    | some m => simp [ih m]

/-- No word among bytes of a chain is uncorrectable when every word is sound. -/
theorem firstBroken_of_sound {s : State} (h : s.check.bad = []) (bs : List BlockNo) (lo hi : Nat) : s.firstBroken bs lo hi = none := by
  have hn : s.brokenWords bs lo hi = [] := List.filterMap_eq_nil_iff.mpr (fun k _ => by split <;> simp [h])
  simp [State.firstBroken, hn]

/-- The first uncorrectable word among bytes of a chain, when it is the one word that is not sound. -/
theorem firstBroken_lone {s : State} {b : BlockNo} {o : Nat} {syn : BitVec 7} {t : Time} {bs : List BlockNo} {lo hi : Nat}
    (h : s.check.bad = [⟨⟨.blockMemory, b.val, o⟩, .uncorrectable syn, t⟩]) (ho : o < 32)
    (hw : chainWords bs lo hi ⟨.blockMemory, b.val, o⟩ = true) : s.firstBroken bs lo hi = some ⟨b, o⟩ := by
  have hb : ∃ k : Nat, bs[k]? = some b := by
    simp only [chainWords, Bool.and_eq_true, List.any_eq_true] at hw
    obtain ⟨_, k, _, hk⟩ := hw
    split at hk
    · rename_i c hc
      simp only [Bool.and_eq_true, beq_iff_eq] at hk
      exact ⟨k, by rw [hc]; exact congrArg some (Fin.ext hk.1.1)⟩
    · simp at hk
  obtain ⟨k, hk⟩ := hb
  have hlen : k < bs.length := (List.getElem?_eq_some_iff.mp hk).1
  have hne : s.brokenWords bs lo hi ≠ [] := by
    intro he
    have hm : 32 * k + o ∈ List.range (32 * bs.length) := by simp; omega
    have := (List.filterMap_eq_nil_iff.mp he) _ hm
    have hq : (32 * k + o) / 32 = k := by omega
    have hr : (32 * k + o) % 32 = o := by omega
    simp [hq, hr, hk, h, hw, BadWord.isUncorrectable] at this
  obtain ⟨x, xs, hx⟩ := List.exists_cons_of_ne_nil hne
  have hmem : x ∈ s.brokenWords bs lo hi := by rw [hx]; simp
  simp only [State.firstBroken, hx, List.head?_cons, Option.map_some]
  simp only [State.brokenWords, List.mem_filterMap] at hmem
  obtain ⟨j, _, hj⟩ := hmem
  split at hj
  · rename_i c hc
    simp only [h, Option.map_eq_some_iff] at hj
    obtain ⟨w, hw', rfl⟩ := hj
    have hw2 := List.find?_some hw'
    have hw3 := List.mem_of_find?_eq_some hw'
    simp only [List.mem_singleton] at hw3
    subst hw3
    simp at hw2
    simp [hw2.1.2]
    exact Fin.ext hw2.1.2.1.symm
  · simp at hj

/-! ### Placements during pool recovery -/

/-- During recovery no placement is taken (R40, R54). -/
theorem place_recovering {s : State} (h : s.pool.recovering = true) (t : Placement) (c : Chain) : s.place t c = (s, false) := by
  cases t <;> simp [State.place, State.placeTrunk, State.placeStar, h]

/-! ### The beginning of a star frame -/

/-- Two changes of one port are one change. -/
theorem modPort_modPort (s : State) (p : PortId) (f g : Port → Port) :
    (s.modPort p f).modPort p g = s.modPort p (fun q => g (f q)) := by
  simp [State.modPort]

/-- A change of a port is what it makes of the port as it stands. -/
theorem modPort_congr {s : State} {p : PortId} {f g : Port → Port} (h : f (s.port p) = g (s.port p)) :
    s.modPort p f = s.modPort p g := by
  simp only [State.port, Fin.getElem_fin] at h
  simp [State.modPort, h]

/-- A change that leaves the port as it stands changes nothing. -/
theorem modPort_same {s : State} {p : PortId} {f : Port → Port} (h : f (s.port p) = s.port p) : s.modPort p f = s := by
  simp only [State.port, Fin.getElem_fin] at h
  simp [State.modPort, h]

/-- A frame that was coming when its port left UP is counted, and once (R43). -/
theorem countLeft_coming {s : State} {p : PortId} {l : LeftUp} (h : (s.port p).leftUp = some l) {began : Time}
    (hs : l.since ≤ began) (hb : began < l.left) :
    s.countLeft p began = s.modPort p (fun q =>
      { q with leftUp := none, totals := q.totals.raise (if l.isolated then 7 else 6) }) := by
  rw [State.countLeft, h]
  simp only [hs, hb, and_self, if_true]
  cases l.isolated <;> exact modPort_modPort s p _ _

/-- A frame that was not coming when its port left UP is not counted for it. -/
theorem countLeft_apart {s : State} {p : PortId} {began : Time}
    (h : ∀ l, (s.port p).leftUp = some l → ¬ (l.since ≤ began ∧ began < l.left)) : s.countLeft p began = s := by
  unfold State.countLeft
  split
  · rename_i l hl; simp [h l hl]
  · rfl

/-- No byte of an ignored frame changes anything. -/
theorem feedPortBytes_ignored {s : State} {p : PortId} {r : Reception} (h : (s.port p).rx = some r) (hm : r.mode = .ignored)
    (bytes : List Byte) : bytes.foldl (fun t b => t.feedPortByte p b) s = s := by
  induction bytes with
  | nil => rfl
  | cons b rest ih => rw [List.foldl_cons, State.feedPortByte, h]; simpa [hm] using ih

/-- No byte that comes to a port with no reception changes anything. -/
theorem feedPortBytes_none {s : State} {p : PortId} (h : (s.port p).rx = none) (bytes : List Byte) :
    bytes.foldl (fun t b => t.feedPortByte p b) s = s := by
  induction bytes with
  | nil => rfl
  | cons b rest ih => rw [List.foldl_cons, State.feedPortByte, h]; exact ih

/-- A byte of a frame received for its class alone joins the bytes received. -/
theorem feedPortByte_counted {s : State} {p : PortId} {r : Reception} (h : (s.port p).rx = some r) (hm : r.mode = .countOnly)
    (hc : r.chain = none) (b : Byte) :
    s.feedPortByte p b = s.modPort p (fun q => { q with rx := some { r with bytes := r.bytes ++ [b] } }) := by
  have hr : s.modPortRx p (fun r => { r with bytes := r.bytes ++ [b] }) =
      s.modPort p (fun q => { q with rx := some { r with bytes := r.bytes ++ [b] } }) := modPort_congr (by simp [h])
  have hk : s.modPortRx p (fun r' => { r' with bytes := r.bytes ++ [b] }) =
      s.modPort p (fun q => { q with rx := some { r with bytes := r.bytes ++ [b] } }) := modPort_congr (by simp [h])
  rw [State.feedPortByte, h]
  simp only [hm, reduceCtorEq, if_false, hk, hc]
  split
  · unfold State.stageStar
    split
    · rename_i r' _ hr'
      simp only [port_modPort_same, Option.some.injEq] at hr'
      simp [← hr', Reception.isFull]
    · rfl
  · split
    · rw [State.releaseChain, State.modPortRx, modPort_modPort]
      exact modPort_congr (by simp [← hc])
    · rfl

/-- The bytes of a frame received for its class alone join the bytes received, and nothing else is done. -/
theorem feedPortBytes_counted {s : State} {p : PortId} {r : Reception} (h : (s.port p).rx = some r) (hm : r.mode = .countOnly)
    (hc : r.chain = none) (bytes : List Byte) :
    bytes.foldl (fun t b => t.feedPortByte p b) s =
      s.modPort p (fun q => { q with rx := some { r with bytes := r.bytes ++ bytes } }) := by
  induction bytes generalizing s r with
  | nil => exact (modPort_same (by simp [← h])).symm
  | cons b rest ih =>
    rw [List.foldl_cons, feedPortByte_counted h hm hc, ih (r := { r with bytes := r.bytes ++ [b] }) (by simp) hm hc, modPort_modPort]
    simp

end Sys2Proof.Machine
end

