-- ==== Sys2Proof/WellFormed.lean ====
section
/-! DEFINITION. Which commands can reach the part: operands within what the manual gives the event they stand for. -/

namespace Sys2Proof

/-- How many items a protected store has from its first index, and that index (R169). -/
def Store.bounds : Store → Nat × Nat
  | .blockMemory | .blockRecords => (0, 256)
  | .directory => (1, 254)
  | .aliasTable => (0, 32)
  | .roster => (0, 16)
  | .jobRecords => (0, 12)

/-- The words of an item of a store (R169). -/
def Store.words : Store → Nat
  | .blockMemory => 32
  | .blockRecords => 1
  | .directory | .aliasTable | .roster => 4
  | .jobRecords => 8

/-- The location names a word of a protected store (R169). -/
def WordLoc.exists_ (l : WordLoc) : Bool :=
  decide (l.store.bounds.1 ≤ l.index) && decide (l.index < l.store.bounds.1 + l.store.bounds.2) && decide (l.offset < l.store.words)

/-- Every upset strikes a word that exists. -/
def Moment.wellFormed (e : Moment) : Bool := e.upsets.all (fun u => u.loc.exists_)

/-- A number that has a directory record (R68). -/
def hasRecord (n : Byte) : Bool := (n != 0) && (n != 255)

/-- The operands of a command, but for its moment, are what its event can bring. -/
def Instr.operandsOk : Instr → Bool
  | .settingsLoadEnd _ image => decide (image.length ≤ 64)
  | .headerStaged _ _ bytes => decide (bytes.length = 6)
  | .starHeaderStaged _ _ bytes => decide (bytes.length = 16)
  | .blockRequest _ _ bytes => !bytes.isEmpty
  | .trunkOverlongByte _ _ bytes => !bytes.isEmpty && decide (bytes.length ≤ 521)
  | .starOverlongByte _ _ bytes => !bytes.isEmpty && decide (bytes.length ≤ 1521)
  | .nodeAgeExpiry _ _ node => (node != 0) && (node != 0xFFFFFFFFFFFF#48)
  | .directoryAgeExpiry _ n => hasRecord n
  | .quarantineExpiry _ n => hasRecord n
  | .fullReset _ | .resetRelease _ | .runLampFlash _ | .read _ | .readClear _ | .restoreSide _ | .partitionSide _
  | .releasePort _ | .cancelJob _ | .restart _ | .restartReleases _ | .restartExecute _ | .carrierOn _ _ | .jabber _ _
  | .burstEnd _ _ _ | .quietGapEnd _ _ | .answerEnd _ _ | .attemptBegin _ _ | .attemptSentWhole _ _ | .collision _ _
  | .jamEnd _ _ | .backoffWaitEnd _ _ | .busyWaitEnd _ _ | .ackWindowEnd _ _ | .trunkSendUncorrectable _ _ | .lineFault _ _ _
  | .linkPresent _ _ | .linkLost _ _ | .starFrameEnd _ _ _ | .starSendStart _ _ | .starFrameSent _ _
  | .starSendUncorrectable _ _ | .retireTestEnd _ _ | .poolRecoveryEnd _ | .broadcastEntryExpiry _ | .claimBegin _
  | .claimDue _ _ | .aliasBind _ _ | .failedRetry _ _ | .holdExpiry _ _ | .announceTimerExpiry _ | .rosterExpiry _ _
  | .jobIdleExpiry _ _ | .slotExpiry _ _ | .printerLineChange _ _ | .absentWatchEnd _ | .initPulseEnd _ | .bytePresent _
  | .acknowledge _ | .byteTimerExpiry _ | .jobBegin _ | .sideWindowEnd _ _ | .loopHoldExpiry _ _ | .loopWatchExpiry _ _
  | .loopAssessmentEnd _ | .starWindowEnd _ _ | .starHoldExpiry _ _ | .scrubRead _ => true

/-- The command is well formed. -/
def Instr.wellFormed (i : Instr) : Bool := i.moment.wellFormed && i.operandsOk

end Sys2Proof
end

