-- ==== Sys2Proof/Tests/Slice0.lean ====
section
/-! SUPPORT. The model's own tests: worked values of the manual, the WellFormed smoke tests, and for every statement with hypotheses a
witness: a concrete state and operands that meet them, clause by clause, at the boundary where a clause has one. -/

namespace Sys2Proof.Tests

open Sys2Proof.Machine

set_option Elab.async false

/-! ### Hypotheses as tests -/

/-- The fields that make a state calm, as one test. -/
def calm (s : State) : Bool :=
  decide (s.health.sides.west.state ≠ .partitioning) && decide (s.health.sides.east.state ≠ .partitioning) &&
  s.spool.outbox.isEmpty && s.check.bad.isEmpty && !s.pool.recovering

theorem calm_iff (s : State) (h : calm s = true) : s.Calm := by
  simp only [calm, Bool.and_eq_true, decide_eq_true_eq, List.isEmpty_iff, Bool.not_eq_true'] at h
  exact ⟨⟨h.1.1.1.1, h.1.1.1.2, h.1.1.2⟩, h.1.2, h.2⟩

/-- The fields that settle a state, as one test. -/
def settled (s : State) : Bool :=
  decide (s.health.sides.west.state ≠ .partitioning) && decide (s.health.sides.east.state ≠ .partitioning) && s.spool.outbox.isEmpty

theorem settled_iff (s : State) (h : settled s = true) : s.Settled := by
  simp only [settled, Bool.and_eq_true, decide_eq_true_eq, List.isEmpty_iff] at h
  exact ⟨h.1.1, h.1.2, h.2⟩

/-- No side is left to settle, as one test; and with sound stores and no recovery. -/
def resting (s : State) : Bool :=
  [Side.west, Side.east].all (fun x => decide ((s.side x).state ≠ .partitioning) || (s.unit x).inFlight) && s.spool.outbox.isEmpty

theorem resting_iff (s : State) (h : resting s = true) : s.Resting := by
  simp only [resting, List.all_cons, List.all_nil, Bool.and_true, Bool.and_eq_true, Bool.or_eq_true, decide_eq_true_eq,
    List.isEmpty_iff] at h
  refine ⟨fun x hx => ?_, h.2⟩
  cases x with
  | west => exact h.1.1.resolve_left (fun n => n hx)
  | east => exact h.1.2.resolve_left (fun n => n hx)

def sound (s : State) : Bool := resting s && s.check.bad.isEmpty && !s.pool.recovering

theorem sound_iff (s : State) (h : sound s = true) : s.Sound := by
  simp only [sound, Bool.and_eq_true, List.isEmpty_iff, Bool.not_eq_true'] at h
  exact { resting_iff s h.1.1 with sound := h.1.2, steady := h.2 }

/-- What a grant of a block takes, as one test. -/
def grants (s : State) (o : Origin) (b : BlockNo) : Bool :=
  decide (s.pool.head = some b) && decide (1 ≤ s.pool.free) && decide (s.pool.forwardingHeld + 1 ≤ s.cfg.forwardCap) &&
  decide (s.heldCount o + 1 ≤ s.cfg.portQuota) && !s.underTest b

theorem grants_iff (s : State) (o : Origin) (b : BlockNo) (h : grants s o b = true) : s.Grants o b := by
  simp only [grants, Bool.and_eq_true, decide_eq_true_eq, Bool.not_eq_true'] at h
  exact ⟨h.1.1.1.1, h.1.1.1.2, h.1.1.2, h.1.2, h.2⟩

/-- Why a block is refused, as a test. -/
def refuses (s : State) (n : Nat) (o : Origin) : PoolCount → Bool
  | .noFree => decide (s.pool.free < n)
  | .forwardCap => decide (n ≤ s.pool.free ∧ s.cfg.forwardCap < s.pool.forwardingHeld + n)
  | .quota => decide (n ≤ s.pool.free ∧ s.pool.forwardingHeld + n ≤ s.cfg.forwardCap ∧ s.cfg.portQuota < s.heldCount o + n)
  | _ => false

theorem refuses_iff (s : State) (n : Nat) (o : Origin) (k : PoolCount) (h : refuses s n o k = true) : s.Refuses n o k := by
  cases k <;> simp_all [refuses, State.Refuses]

/-- A FORWARDING chain charged to a tag, as a test. -/
def linked (p : Pool) (o : Origin) : List BlockNo → Bool
  | [] => true
  | b :: rest =>
    decide (p.records[b].cls = .forwarding) && decide (p.records[b].tag = some (.ingress o)) &&
    decide (p.records[b].next = rest.head?) && linked p o rest

theorem linked_iff (p : Pool) (o : Origin) (bs : List BlockNo) (h : linked p o bs = true) : p.Linked o bs := by
  induction bs with
  | nil => trivial
  | cons b rest ih =>
    simp only [linked, Bool.and_eq_true, decide_eq_true_eq] at h
    exact ⟨h.1.1.1, h.1.1.2, h.1.2, ih h.2⟩

/-- What the release of a chain takes, as one test. -/
def releasable (s : State) (o : Origin) (bs : List BlockNo) : Bool :=
  linked s.pool o bs && decide bs.Nodup && bs.all (fun b => !s.underTest b) &&
  (match s.pool.tail with | some t => decide (s.pool.records[t].cls = .free) | none => true)

theorem releasable_iff (s : State) (o : Origin) (bs : List BlockNo) (h : releasable s o bs = true) : s.Releasable o bs := by
  simp only [releasable, Bool.and_eq_true, decide_eq_true_eq, List.all_eq_true, Bool.not_eq_true'] at h
  refine ⟨linked_iff _ _ _ h.1.1.1, h.1.1.2, h.1.2, fun t e => ?_⟩
  simpa [e] using h.2

/-- A test that every entry in use meets. -/
def allEntries (s : State) (p : EntryNo → AliasEntry → Bool) : Bool :=
  (List.finRange 32).all (fun i => match s.entry i with | some c => p i c | none => true)

theorem allEntries_iff (s : State) (p : EntryNo → AliasEntry → Bool) (h : allEntries s p = true) :
    ∀ i c, s.entry i = some c → p i c = true := by
  intro i c e
  have := List.all_eq_true.mp h i (List.mem_finRange i)
  simpa [e] using this

/-- A test that every peer of the roster meets. -/
def allPeers (s : State) (p : RosterNo → RosterEntry → Bool) : Bool :=
  (List.finRange 16).all (fun j => match s.peer j with | some e => p j e | none => true)

theorem allPeers_iff (s : State) (p : RosterNo → RosterEntry → Bool) (h : allPeers s p = true) :
    ∀ j e, s.peer j = some e → p j e = true := by
  intro j e k
  have := List.all_eq_true.mp h j (List.mem_finRange j)
  simpa [k] using this

/-- A test that every job meets. -/
def allJobs (s : State) (p : Slot → Job → Bool) : Bool :=
  (List.finRange 12).all (fun k => match s.job k with | some j => p k j | none => true)

theorem allJobs_iff (s : State) (p : Slot → Job → Bool) (h : allJobs s p = true) :
    ∀ k j, s.job k = some j → p k j = true := by
  intro k j e
  have := List.all_eq_true.mp h k (List.mem_finRange k)
  simpa [e] using this

/-- A test that every directory record meets. -/
def allRecords (s : State) (p : Byte → DirRecord → Bool) : Bool :=
  (List.range 256).all (fun k => match s.dir (BitVec.ofNat 8 k) with | some r => p (BitVec.ofNat 8 k) r | none => true)

theorem allRecords_iff (s : State) (p : Byte → DirRecord → Bool) (h : allRecords s p = true) :
    ∀ n r, s.dir n = some r → p n r = true := by
  intro n r e
  have := List.all_eq_true.mp h n.toNat (List.mem_range.mpr n.isLt)
  simpa [e] using this

/-! ### States to test on -/

/-- A moment with no memory upset. -/
def at_ (t : Time) : Moment := ⟨t, []⟩

/-- The moment of most tests. -/
def T : Time := 10000000000

/-- Settings with a base identifier, printing enabled, every port enabled and station 23 on the admin list. -/
def cfg : Settings :=
  { Settings.default with baseId := some 0x00400B001000#48, printEnable := 1, portMask := 63, adminList := [23, 0, 0, 0] }

/-- A device in RUN at moment `T`, its ports UP, its sides JOINED and silent, nothing else about. -/
def run : State :=
  { State.reset with
    now := T
    admin := { AdminUnit.reset with device := .run, settings := cfg, runLamp := true }
    ports := Vector.replicate 6 { Port.reset with state := .up }
    pins := { Pins.reset with resetAsserted := false, link := Vector.replicate 6 true } }

/-- An alias entry in use. -/
def ent (i : EntryNo) (c : AliasEntry) (s : State) : State := s.setEntry i (some c)

/-- A directory record. -/
def known (n : Byte) (r : DirRecord) (s : State) : State := s.setDir n (some r)

/-- A LEGACY record heard just now on a side. -/
def legacy (x : Side) : DirRecord := ⟨.legacy x, T, 0, none, none⟩

/-- Changes a side's unit, a port, and the Print Spool. -/
def unit (x : Side) (f : TrunkUnit → TrunkUnit) (s : State) : State := s.modUnit x f
def port (p : PortId) (f : Port → Port) (s : State) : State := s.modPort p f
def spool (f : PrintSpool → PrintSpool) (s : State) : State := s.modSpool f
def pool (f : Pool → Pool) (s : State) : State := s.modPool f
def admin (f : AdminUnit → AdminUnit) (s : State) : State := s.modAdmin f
def side (x : Side) (f : SideHealth → SideHealth) (s : State) : State := s.modSide x f
def check (f : CheckUnit → CheckUnit) (s : State) : State := s.modCheck f
def engine (f : Forwarding → Forwarding) (s : State) : State := s.modEngine f
def health (f : Health → Health) (s : State) : State := s.modHealth f
def lend (f : LendUnit → LendUnit) (s : State) : State := s.modLend f

/-- The printer's entry as `lent` has it. -/
def printerEntry : AliasEntry := ⟨.printer, 0x00400B001001, none, .bound 132, 0, 3, 3⟩

/-- The junction's entry as `lent` has it. -/
def junctionEntry : AliasEntry := ⟨.junction, 0x00400B001000, none, .bound 131, 0, 3, 3⟩

/-- The junction's number 131 and the printer's 132 are bound; station 23 is known on WEST. -/
def lent : State :=
  known 23 (legacy .west) (known 132 ⟨.own none 0x00400B001001 1, 0, 0, none, none⟩ (ent 1 printerEntry
    (known 131 ⟨.own none 0x00400B001000 0, 0, 0, none, none⟩ (ent 0 junctionEntry run))))

/-- One block taken for a tag, with bytes in it. -/
def oneBlock (o : Origin) (bytes : List Byte) (s : State) : State := State.storeChain [0] 0 bytes (s.requestBlock o none).1

/-- A chain of two blocks taken for WEST. -/
def twoBlocks : State := let r := lent.requestBlock (.side .west) none; (r.1.requestBlock (.side .west) r.2).1

/-- No block is FREE. -/
def drained (s : State) : State := pool (fun p => { p with head := none, tail := none, free := 0 }) s

/-- A trunk frame, and a star frame, with a payload. -/
def fr (d s k q : Byte) (p : List Byte) : List Byte := trunkFrame ⟨d, s, k, q, BitVec.ofNat 16 p.length⟩ p
def sfr (d s : Ident) (k q : Byte) (p : List Byte) : List Byte := starFrame ⟨d, s, k, q, BitVec.ofNat 16 p.length⟩ p

/-- The bytes 1 to 255, over and over. -/
def run255 (n : Nat) : List Byte := (List.range n).map (fun k => BitVec.ofNat 8 (k % 255 + 1))

/-- A burst, and a star frame, begun 10 µs ago with these bytes of it received. -/
def burst (bs : List Byte) : Reception := ⟨T - 100, .full, bs, none, false, false, none, false, false, false⟩
def hearing (x : Side) (s : State) : State := unit x (fun u => { u with rx := some (burst []), idleSince := none }) s
def starHearing (p : PortId) (s : State) : State := port p (fun q => { q with rx := some (burst []) }) s

/-- What a side, or a port, has received when bytes have come at moment `T`. -/
def after (s : State) (x : Side) (bs : List Byte) : State := (s.arrive (at_ T)).feed x bs
def starAfter (s : State) (p : PortId) (bs : List Byte) : State := (s.arrive (at_ T)).feedPort p bs
def rxOf (s : State) (x : Side) : Reception := (s.unit x).rx.getD (burst [])
def starRxOf (s : State) (p : PortId) : Reception := (s.port p).rx.getD (burst [])

/-- Two star nodes' identifiers. -/
def nodeA : Ident := 0x02601C000411
def nodeB : Ident := 0x02601C000412

/-- The trunk form of station 131, without a prefix. -/
def number7E83 : Ident := 0x000000007E83

/-- A record of a frame relayed from WEST, 17 to 9, in block 0. -/
def relayed : TrunkRecord where
  head := 0
  blocks := 1
  form := .trunk
  asStored := true
  length := 16
  payload := 3
  dest := 9
  src := 17
  kind := 1
  seq := 5
  origin := .side .west
  cls := .ordinary
  proxyAcked := false
  collisions := 0
  ackMisses := 0
  busyCount := 0
  begun := false
  phase := .due

/-- A record of a frame switched from STAR-2, node A to node B, in block 0. -/
def switched : StarRecord where
  head := 0
  blocks := 1
  form := .star
  asStored := true
  length := 24
  payload := 3
  dest := nodeB
  src := nodeA
  kind := 1
  seq := 7
  origin := .star 1
  cls := .ordinary
  proxyAcked := false
  collisions := 0
  ackMisses := 0
  busyCount := 0
  begun := false
  phase := .due

/-- The device while it loads: the read not begun, and under way. -/
def halted : State := { run with admin := AdminUnit.reset, pins := Pins.reset, ports := State.reset.ports }
def loading : State :=
  { halted with admin := { AdminUnit.reset with reading := true }
                pins := { Pins.reset with resetAsserted := false, link := Vector.replicate 6 true, lineFault := ⟨true, false⟩ } }

/-- A valid settings image: the values of `cfg`, station 23 on the admin list, ports 1 and 2 enabled. -/
def image : List Byte :=
  let fields : List Byte :=
    [68, 115, 1, 0, 0x40, 0x0B, 0, 0x10, 0, 0, 0, 0, 0, 0x7E, 128, 223, 224, 23, 0, 0, 0, 2, 0, 0, 128, 10, 0, 120, 2, 88, 0, 60, 16,
     0, 200, 0, 30, 3, 1, 0, 128, 32, 64, 0, 60, 1, 44]
  let body := fields ++ List.replicate (63 - fields.length) 0
  body ++ [BitVec.ofNat 8 (256 - (body.map BitVec.toNat).sum % 256)]

/-- A request of station 23 at the front of the requests, its frame in block 0. -/
def request (op cls index command argument : Byte) : Request := ⟨.station 23, op, cls, index, command, argument, 0⟩
def asked (q : Request) (s : State) : State :=
  admin (fun a => { a with inbox := [q] })
    (oneBlock (.side .west) (fr 131 23 72 1 [q.op, q.cls, q.index, q.command, q.argument]) s)

/-- Nobody is on the admin list. -/
def noAdmin (s : State) : State := admin (fun a => { a with settings := { a.settings with adminList := [0, 0, 0, 0] } }) s

/-! ### The states and operands of the witnesses -/

/-- RELAY-ONLY with its flash timer at its end. -/
def relayOnly : State := admin (fun a => { a with device := .relayOnly, flashAt := some T }) run
def relayOnlyEmpty : State := lend (fun l => { l with table := Vector.replicate 32 none, claims := [] }) relayOnly

/-- A RESTART asked for; one pending; 250 ms after it; 250 ms after the releases. -/
def askRestart : State := asked (request 3 0 0 5 0) lent
def askRestartAgain : State := admin (fun a => { a with restartPending := some (T - 5) }) askRestart
def restartDue : State := admin (fun a => { a with restartPending := some (T - 2500000) }) lent
def restartReady : State := admin (fun a => { a with releasesSent := some (T - 2500000) }) (pool (fun p => { p with retired := [7], retiredCount := 1 }) restartDue)

/-- EAST is PARTITIONED for a reason. -/
def cut (r : PartitionReason) (s : State) : State := side .east (fun h => { h with state := .partitioned, reason := some r }) s

/-- PRINT-STATUS called for, of a payload. -/
def noticed (p : List Byte) : State := spool (fun q => { q with outbox := [⟨.number 23, p⟩] }) lent
def payload97 : List Byte := run255 97

/-- The cap, and the quota of WEST, are used up; and both have room for one block. -/
def capped : State := pool (fun p => { p with forwardingHeld := 224 }) lent
def fullQuota (o : Origin) : State := pool (fun p => { p with forwardingHeld := 223, held := p.held.set o.idx 64 }) lent
def overQuota : State := fullQuota (.side .west)
def lastRoom : State := pool (fun p => { p with forwardingHeld := 223, held := p.held.set 0 63 }) lent
def recovering : State := pool (fun p => { p with recovering := true }) lent

/-- A retire test of block 9 that began 64 µs ago, the block FREE, or held for slot 0 outside any chain. -/
def target : TestTarget := ⟨9, 3⟩
def testing (t : TestTarget) (s : State) : State := check (fun c => { c with test := some (t, T - 640) }) s
def testFree : State := testing target lent
def testHeld : State := pool (fun p => { p with records := p.records.set 9 ⟨.spool, none, false, some (.slot 0)⟩, spoolHeld := 1 }) testFree
def testForwarding : State :=
  pool (fun p => { p with records := p.records.set 9 ⟨.forwarding, none, false, some (.ingress (.side .west))⟩, forwardingHeld := 1,
                          held := p.held.set 0 1 }) testFree
def listing (n : Nat) (s : State) : State := pool (fun p => { p with retired := (List.range n).map (fun k => Fin.ofNat 256 (k + 100)) }) s
def testFull : State := listing 64 testHeld

/-- The scrubber's turn at the last word, sound or with a single-bit error. -/
def scrubbing (bad : List BadWord) : State := check (fun c => { c with scrubPos := 9751, scrubAt := some T, bad := bad }) lent
def lastWord : WordLoc := ⟨.jobRecords, 11, 7⟩

/-- Two blocks are taken, and block 7 is retired. -/
def retired7 : State := pool (fun p => { p with retired := [7] }) twoBlocks

/-- The head record of WEST awaits its answer, its window one unit from its end. -/
def awaited : TrunkRecord := { relayed with phase := .awaiting (T - 639) false }
def awaiting : State := unit .west (fun u => { u with queue := [awaited], ownWindowUntil := T + 1 }) lent
def jamming : State := unit .west (fun u => { u with sending := .jam T }) lent
/-- Another station's carrier is about on WEST while the unit sends, or has only just sent. -/
def crowded (s : State) : State := unit .west (fun u => { u with otherCarrier := true }) s

/-- The sixteen bytes of a star header, broadcast and for an identifier nobody has. -/
def starHead (d : Ident) : StarHeader := ⟨d, nodeA, 1, 7, 3⟩
def starHeadBytes (d : Ident) : List Byte := (sfr d nodeA 1 7 [1, 2, 3]).take 16

/-- Node A stands on port 1 and node B on port 2, without alias entries. -/
def twoNodes : State := port 0 (fun q => { q with nodes := [⟨nodeA, T, none⟩] }) (port 1 (fun q => { q with nodes := [⟨nodeB, T, none⟩] }) lent)
def towards (d : Ident) : StarHeader := ⟨d, nodeA, 1, 1, 3⟩

/-- The first 128 bytes of a trunk frame of 300 bytes of payload for an unknown station, and of a star broadcast. -/
def first128 : List Byte := [200, 9, 1, 5, 1, 44] ++ run255 122
def starFirst128 : List Byte := (sfr 0xFFFFFFFFFFFF nodeA 1 7 []).take 14 ++ [1, 44] ++ run255 112
def heard : State := hearing .west lent
def heardStar : State := starHearing 0 lent
/-- The same with the header staged and no block left FREE. -/
def staged0 : State := drained (after heard .west (first128.take 6))
def starStaged0 : State := drained (starAfter heardStar 0 (starFirst128.take 16))

/-- 520 bytes of a burst that goes on, and 1,520 of a star frame. -/
def long520 : List Byte := [200, 9, 1, 5, 2, 88] ++ run255 514
def trunkLong : State := unit .west (fun u => { u with rx := some (burst long520) }) lent
def starLong : State := port 0 (fun q => { q with rx := some (burst (List.replicate 1520 1)) }) lent
/-- 200 bytes of a burst that began `t` ago, marked JABBER or not. -/
def talking (t : Nat) (jabber : Bool) : State :=
  unit .west (fun u => { u with rx := u.rx.map (fun r => { r with began := T - t, jabber := jabber }) })
    (after heard .west ([200, 9, 1, 5, 1, 44] ++ run255 194))

/-- Bursts of each class: 15 bytes, a wrong check, 521 bytes; and a star frame too short. -/
def runt : List Byte := (fr 17 9 1 4 [5]).take 15
def wrongCheck : List Byte := (fr 17 9 1 4 [5]).set 9 7
def over520 : List Byte := long520 ++ [4]
def starRunt : List Byte := (sfr nodeB nodeA 1 7 [1, 2, 3]).take 22
def isolated : State := port 0 (fun q => { q with state := .isolated }) lent
/-- A length field that the byte count does not bear out. -/
def wrongLength : List Byte := let b := [1, 2, 3, 4, 0, 200] ++ List.replicate 10 (0 : Byte); b ++ checkBytes16 (trunkCheck b)

/-- Station 17 is known on EAST and station 9 on WEST, and a frame from 9 to 17 is heard on WEST. -/
def relaying : State := known 17 (legacy .east) (known 9 (legacy .west) heard)
def frame17 : List Byte := fr 17 9 1 4 (run255 10)
def frame17Header : TrunkHeader := ⟨17, 9, 1, 4, 10⟩
def noChain (d : Decode) : TrunkFrame := ⟨.west, ⟨17, 9, 1, 4, 3⟩, d, false, false, false, none⟩
/-- A frame heard on WEST, of a kind and for a number, its chain in block 0; the one before it in EAST's queue; EAST's queue full. -/
def inBlock0 : Chain := ⟨0, 0, 1⟩
def ended (dest kind : Byte) (d : Decode) : TrunkFrame := ⟨.west, ⟨dest, 9, kind, 4, 3⟩, d, false, false, false, some inBlock0⟩
def carrying : State := oneBlock (.side .west) (fr 17 9 1 4 [1, 2, 3]) lent
def behind (s : State) : State := unit .east (fun u => { u with queue := [{ relayed with dest := 77, src := 9, seq := 4 }] }) s
def crammed (x : Side) (s : State) : State := unit x (fun u => { u with queue := List.replicate 32 relayed }) s
def cutOff (s : State) : State := port 0 (fun q => { q with state := .isolated }) s
def castOnce (src seq : Byte) (s : State) : State := engine (fun q => { q with broadcasts := [⟨src, seq, 1, T⟩] }) s
def heardTwice : TrunkFrame := { noChain (.entry 1 none) with duplicate := true }
def upOnly (p : PortId) (s : State) : State :=
  (List.finRange 6).foldl (fun s q => port q (fun v => { v with state := if q = p then .up else .down }) s) s

/-- The head record of WEST, for station 9 that is known there, awaits its answer; a burst has begun in its window. -/
def asker (busy misses : Nat) : TrunkRecord :=
  { relayed with
    seq := 4, origin := .side .east, phase := .awaiting (T - 300) true, busyCount := busy, ackMisses := misses, begun := true }
def answering (busy misses : Nat) : State :=
  unit .west (fun u => { u with queue := [asker busy misses], rx := some { burst [] with inAckWindow := true, settles := true } })
    (known 9 (legacy .west) (oneBlock (.side .east) [1, 2, 3] lent))
def reply (kind seq : Byte) (p : List Byte) : List Byte := fr 17 9 kind seq p

/-- The line of WEST has been silent for `t`, with a queue and an answer. -/
def idle (t : Nat) (q : List TrunkRecord) (w : Option Answer) : State :=
  unit .west (fun u => { u with idleSince := some (T - t), queue := q, answer := w }) lent
def backed (b : Nat) : TrunkRecord := { relayed with phase := .backoffDue b }
def sendingNow (q : Sending) : State := unit .west (fun u => { u with sending := q, idleSince := none }) lent
/-- A frame cut short behind 20 bytes on a side, one byte of its inverted check sent and one to come; that side PARTITIONING. -/
def cutting (x : Side) (s : State) : State :=
  unit x (fun u => { u with sending := .cutCheck 20 (T + 40), lineOut := List.replicate 22 0, idleSince := none }) s
def leaving (s : State) : State := side .west (fun h => { h with state := .partitioning, reason := some .admin }) s

/-- A head record stands in WEST's queue on a quiet line, the line reserved until a time. -/
def queued (r : TrunkRecord) (reserved : Time) : State :=
  unit .west (fun u => { u with queue := [r], quiet := true, idleSince := some (T - 400), reservedUntil := reserved })
    (oneBlock (.side .west) (fr 9 17 1 5 [1, 2, 3]) lent)

/-- The attempt of a head record of 16 bytes began `t` ago. -/
def ours : TrunkRecord := { relayed with origin := .star 2, phase := .sending }
def oursTo255 : TrunkRecord := { ours with dest := 255, src := 99 }
def collided (n : Nat) : TrunkRecord := { ours with collisions := n }
def sixteen : List Transmission := (List.range 16).map (fun k => ⟨BitVec.ofNat 8 (k + 3), 5, 1, .east⟩)
def sent (r : TrunkRecord) (t : Nat) (c : BitVec 8) : State :=
  { unit .west (fun u => { u with queue := [r], sending := .attempt (T - t), idleSince := none, lineOut := fr 9 17 1 5 [1, 2, 3], c := c })
      (oneBlock r.origin (fr 9 17 1 5 [1, 2, 3]) lent) with transmissions := sixteen }

/-- Records that wait. -/
def backing (t : Time) : TrunkRecord := { relayed with phase := .backoff t }
def busy (t : Time) : TrunkRecord := { relayed with phase := .busy t }
def missing (n t : Nat) : TrunkRecord := { relayed with phase := .awaiting (T - t) false, ackMisses := n }

/-- Proxy accounting of five frames, two delivered and three in queues. -/
def proxied : State := engine (fun q => { q with proxy := ⟨5, 2, Vector.replicate 6 0, 3⟩ }) lent
def proxyRecord : TrunkRecord := { ours with proxyAcked := true }

/-- Word 2 of block 0 is uncorrectable while a side, and a port, sends it. -/
def badWord : BadWord := ⟨⟨.blockMemory, 0, 2⟩, .uncorrectable 5, 3⟩
def struck (s : State) : State := check (fun c => { c with bad := [badWord] }) s
def starLine : List Byte := sfr nodeB nodeA 1 7 [1, 2, 3]
/-- A port's head record, the frame sent last, and when its own sending began. -/
def starQueued (r : StarRecord) (last sending : Option Time) : State :=
  port 0 (fun q => { q with queue := [r], lastSent := last, sending := sending, lineOut := if sending.isSome then starLine else [] })
    (oneBlock (.star 1) starLine lent)
def starSending : StarRecord := { switched with begun := true, phase := .sending }

/-- A port that is DOWN with a node whose entry is HELD; and an UP one with nodes in every case of R43. -/
def nodeEntry (i : Ident) (p : PortId) (ph : AliasPhase) : AliasEntry := ⟨.starNode, i, some p, ph, 5, 1, 1⟩
def down : State :=
  port 0 (fun q => { q with state := .down, nodes := [⟨nodeA, 4, some 3⟩], rx := some (burst [1]) })
    (ent 3 (nodeEntry nodeA 0 (.held 140 (T + 9))) (ent 4 (nodeEntry 5 1 (.held 141 (T + 9))) lent))
def upPort : State :=
  port 0 (fun q => { q with nodes := [⟨nodeA, 4, some 3⟩, ⟨5, 3, some 4⟩, ⟨7, 3, none⟩], rx := some (burst [1]) })
    (ent 3 (nodeEntry nodeA 0 (.bound 140)) (ent 4 (nodeEntry 5 0 (.failed 7)) (ent 5 (nodeEntry 6 0 (.held 143 77))
      (ent 6 (nodeEntry 8 1 (.bound 144)) (known 140 ⟨.own (some 0) nodeA 3, 0, 0, none, none⟩ lent)))))
/-- The first word of a record is uncorrectable; nothing is claimed. -/
def hit (st : Store) (i : Nat) (s : State) : State := check (fun c => { c with bad := [⟨⟨st, i, 0⟩, .uncorrectable 5, 3⟩] }) s
def unclaimed (s : State) : State := lend (fun l => { l with claims := [] }) s
def ownRecord : DirRecord := ⟨.own none 0x00400B001000 0, 0, 0, none, none⟩
def switching : State := starHearing 0 twoNodes
def frameToB : List Byte := sfr nodeB nodeA 1 7 (run255 10)
def starWrong : List Byte := frameToB.set 9 7
def starWrongLength : List Byte :=
  let b := (sfr nodeB nodeA 1 7 []).take 14 ++ [0, 200] ++ List.replicate 10 (0 : Byte)
  b ++ checkBytes32 (starCheck b)
/-- Node A stands on port 1, its entry 3 BOUND with number 140 or without a number, and its frame in block 0; WEST alone JOINED. -/
def crossing : State := oneBlock (.star 0) (sfr 0x000000007E09 nodeA 1 7 [1, 2, 3]) upPort
def ended1 (kind : Byte) (len : BitVec 16) (d : Decode) : StarFrame := ⟨0, ⟨nodeB, nodeA, kind, 7, len⟩, d, false, some inBlock0⟩
def numberless (s : State) : State := ent 3 (nodeEntry nodeA 0 .unbound) s
def bound150 (p : PortId) (s : State) : State := ent 9 (nodeEntry nodeB p (.bound 150)) s
/-- Node A stands on port 2 with an entry in a phase, or with none; port 1 has room, or six nodes. -/
def nodeOn2 (entry : Option EntryNo) (ph : AliasPhase) (s : State) : State :=
  known 140 ⟨.own (some 1) nodeA 3, 0, 0, none, none⟩ (ent 3 (nodeEntry nodeA 1 ph) (port 1 (fun q => { q with nodes := [⟨nodeA, 4, entry⟩] }) s))

/-- A full node list; a full alias table; a node unheard for `t`. -/
def sixNodes : State := port 0 (fun q => { q with nodes := (List.range 6).map (fun k => ⟨BitVec.ofNat 48 (k + 100), 0, none⟩) }) lent
def fullTable : State := lend (fun l => { l with table := Vector.replicate 32 (some (nodeEntry 3 3 .unbound)) }) lent
def oldNode (t : Nat) : Node := ⟨nodeA, T - t, none⟩
def aging (t : Nat) : State := port 0 (fun q => { q with nodes := [oldNode t] }) lent

/-- A record with a move count, its window's start and its quarantine; and one last heard `t` ago. -/
def moved (h : Holder) (m : Nat) (w q : Option Time) : DirRecord := ⟨h, 3, m, w, q⟩
def movedNow (r : DirRecord) (h : Holder) : DirRecord := countMove lent.cfg lent.now { r with lastHeard := lent.now, holder := h }
def agedBy (h : Holder) (q : Option Time) (t : Nat) : DirRecord := ⟨h, T - t, 2, some 5, q⟩

/-- Recent broadcasts. -/
def casts (l : List BroadcastEntry) : State := engine (fun q => { q with broadcasts := l }) lent
def cast (t : Nat) : BroadcastEntry := ⟨1, 2, 3, T - t⟩

/-- No side is JOINED. -/
def bothCut : State := side .west (fun h => { h with state := .partitioned }) (cut .admin lent)

/-- Entry 2 seeks a number, at the head of the claim queue; all numbers but those of the junction's clients known; two probing. -/
def seeker : AliasEntry := nodeEntry nodeA 0 .unbound
def seeking : State := lend (fun l => { l with claims := [2, 7] }) (ent 2 seeker lent)
def allKnown : State := (List.range 96).foldl (fun s k => known (BitVec.ofNat 8 (128 + k)) (legacy .west) s) seeking
def twoProbe : State := ent 8 (nodeEntry 9 1 (.probing 201 (.running 4))) (ent 9 (nodeEntry 10 1 (.probing 202 (.running 4))) seeking)

/-- Entry 2 probes for 209, `t` into the probe, with CLAIMs sent and fallen due. -/
def prober (sent dues t : Nat) : AliasEntry := ⟨.starNode, nodeA, some 0, .probing 209 (.running (T - t)), 1, sent, dues⟩
def probing (sent dues t : Nat) : State := ent 2 (prober sent dues t) lent
/-- The same with `n` candidates tried; the first contender's identifier. -/
def triedProber (n : Nat) : AliasEntry := { prober 2 2 5000000 with tried := n }
def contending (n : Nat) : State := ent 2 (triedProber n) lent
def nodeLow : Ident := 0x02601C000410
def failed (t : Time) : State := ent 2 (nodeEntry nodeA 0 (.failed t)) lent
def holder140 : DirRecord := ⟨.own (some 0) nodeA 2, 3, 0, none, none⟩
def holding (t : Time) : State := known 140 holder140 (ent 2 (nodeEntry nodeA 0 (.held 140 t)) lent)

/-- The announce timer ends at a time; nothing is held; the junction's own entry has no number but nodes have. -/
def announcing (t : Time) (s : State) : State := lend (fun l => { l with announceAt := some t }) s
def listed : State := ent 5 (nodeEntry 6 1 (.held 150 7)) (ent 4 (nodeEntry 5 0 (.bound 151)) lent)
def listedOnly : State := ent 5 (nodeEntry 6 1 (.held 150 7)) (ent 4 (nodeEntry 5 0 (.bound 151)) run)

/-- A peer of the roster, heard on WEST and EAST, with a record of its own and a loop watch. -/
def peerId : Ident := 0x00400B003000
def peer (w e : Option Time) : RosterEntry := ⟨peerId, 150, ⟨w, e⟩, ⟨none, none⟩, true, none⟩
def watch (t : Time) : LoopWatch := ⟨peerId, .west, 4, t⟩
def rostered (p : RosterEntry) (t : Time) : State :=
  health (fun h => { h with watches := [watch t] }) ((known 150 ⟨.remote .west peerId peerId, 0, 0, none, none⟩ lent).setPeer 4 (some p))

/-- An ANNOUNCE of that peer, of a new one and of the junction itself; a roster that is full, entry 4 the stalest. -/
def announced (j : Ident) : Announce := ⟨j, 150, some (151, 6), []⟩
def newPeer : Ident := 0x00400B009000
def fullRoster : State :=
  (List.finRange 16).foldl (fun s j => s.setPeer j (some ⟨BitVec.ofNat 48 (500 + j.val), 0, ⟨some (T - 9), none⟩, ⟨none, none⟩, false, none⟩))
    (rostered (peer (some (T - 10)) none) T) |>.setPeer 4 (some (peer (some (T - 10)) none))

/-- A printer that is READY; jobs in slots; SPOOL blocks held. -/
def ready : State :=
  { spool (fun p => { p with printer := .ready, linesTaken := true }) lent with
    pins := { lent.pins with printer := ⟨false, false, false, true, true⟩ } }
def job0 : Job where
  number := 7
  originator := some 23
  name := [65]
  copies := 2
  separator := false
  state := .receiving
  reason := .none
  nextIndex := 0
  window := 8
  chain := none
  printed := 0
  copiesLeft := 2
  openTime := T - 9
  lastActivity := T - 9
  finished := none
def slot (k : Slot) (j : Job) (s : State) : State := s.setJob k (some j)
def spoolHeld (n : Nat) (s : State) : State := pool (fun p => { p with spoolHeld := n }) s
def openRequest (size : Nat) : PrintOpen := ⟨[65, 66], 0, size, 2⟩
def opened (t : Time) : Job := { job0 with openTime := t, number := 9 }
def twoReceive : State := slot 3 (opened 5) (slot 1 (opened 6) ready)
def tied : State := slot 3 (opened 5) (slot 1 (opened 5) ready)

/-- Slot 4 holds a job, in the print order or not, its data "AB" in block 0. -/
def chain0 : JobChain := ⟨0, 0, 1, [.trunk]⟩
def chained (j : Job) : State :=
  let s := oneBlock .internal (fr 132 23 17 1 [7, 0, 0, 0x41, 0x42]) ready
  let s := (s.reclassify ⟨0, 0, 1⟩ 4 none).1
  slot 4 j (pool (fun p => { p with records := p.records.set 0 { p.records[0] with endMark := true } }) s)
def ordered (j : Job) : State := spool (fun p => { p with order := [4] }) (chained j)
/-- A print data frame in block 1, behind the job's own chain or as its first; what reclassification makes of the pool. -/
def dataChain : Chain := ⟨1, 1, 1⟩
def offering (j : Job) : State := ((chained j).requestBlock (.side .west) none).1
def reclassified (s : State) (j : Job) : Pool := (s.reclassify dataChain 4 (j.chain.map (·.last))).1.pool
def receivingJob (w : Nat) : Job := { job0 with chain := some chain0, nextIndex := 1, window := w }
def windowless : Job := { job0 with openTime := T - 20, window := 0 }
def twoTight : State := spoolHeld 125 (slot 1 windowless (chained (receivingJob 8)))
def atCap : State := spoolHeld 123 (offering (receivingJob 8))
def asksCancel : Request := request 3 0 0 4 7
def orphan : Job := { job0 with originator := none }
def orphanReady : Job := { orphan with state := .ready, window := 0 }
def finishedJob (t : Nat) : Job := { job0 with state := .done, finished := some (T - t) }
def quietJob (t : Nat) : Job := { job0 with lastActivity := T - t, chain := some chain0 }
def printingJob (n : Nat) : Job := { job0 with state := .printing, chain := some chain0, window := 0, nextIndex := 1, printed := n }
def readyJob : Job := { printingJob 0 with state := .ready }
def separated : Job := { printingJob 1 with separator := true }
def lastCopy : Job := { printingJob 2 with copiesLeft := 1 }
def lastByte : Job := { printingJob 1 with copiesLeft := 1 }
def heldJob (j : Job) : Job := { j with state := .held, reason := .stalled }
def separatorJob : Job := { separated with printed := 2 }
def emptyJob : Job := { separated with chain := none, printed := 0 }
def cancelledJob : Job := { job0 with state := .cancelled, window := 0, finished := some (T - 4), printed := 1 }

/-- INIT driven for `t`; the absent watch; a byte in hand. -/
def pulsed (t : Nat) : State := spool (fun p => { p with initPulse := some (T - t), stall := true, absentMark := true }) ready
def watched (t : Time) (stayed : Bool) : State := spool (fun p => { p with absentWatch := some (t, stayed) }) ready
def inHand (v : Byte) : InHand := ⟨v, false, some 4⟩
def handed (v : Byte) (t : Time) (s : State) : State := spool (fun p => { p with inHand := some (inHand v), byteTimer := some t }) s
def handedSeparator (s : State) : State := spool (fun p => { p with inHand := some ⟨0x0C, true, some 4⟩, byteTimer := some (T + 4) }) s
def handedNone (s : State) : State := spool (fun p => { p with inHand := some ⟨0x41, false, none⟩, byteTimer := some (T + 4) }) s
def initDue (s : State) : State := spool (fun p => { p with initPending := true }) s
def lines (l : PrinterLines) (s : State) : State := { s with pins := { s.pins with printer := l } }
def busyLines : PrinterLines := ⟨false, true, false, true, true⟩
def offLines : PrinterLines := ⟨false, false, false, false, true⟩
def readyBehind (s : State) : State := spool (fun p => { p with order := p.order ++ [6] }) (slot 6 { readyJob with number := 8, chain := none } s)

/-- WEST's window ends now with these counts, its score and its run being these. -/
def windowed (w : WindowCounts) (h run : Nat) : State :=
  side .west (fun s => { s with score := h, windowEnd := some T, cleanRun := run }) (unit .west (fun u => { u with window := w }) lent)
def scored (h : Nat) : State := side .west (fun s => { s with score := h }) lent
def cutWest (h run : Nat) : State := side .west (fun s => { s with state := .partitioned, reason := some .health, cleanRun := run }) (scored h)
def withHead (p : RecordPhase) (s : State) : State := unit .west (fun u => { u with queue := [{ relayed with phase := p }] }) s
def partitioning (p : RecordPhase) : State :=
  withHead p (side .west (fun h => { h with state := .partitioning, reason := some .loop }) (oneBlock (.side .west) [1] lent))

/-- A loop hold on EAST; an assessment that ends at a time. -/
def loopHeld (r : PartitionReason) (t : Time) : State := side .east (fun h => { h with loopHold := some t }) (cut r lent)
def assessing (t : Time) (own : Bool) (s : State) : State := health (fun h => { h with assessment := some t, ownLooped := own }) s

/-- Port 1's window ends now with these counts; an isolation of it ends at a time, link present or not. -/
def starWindow (w : PortCounts) (s : State) : State := port 0 (fun q => { q with window := w, windowEnd := some T }) s
def isolatedUntil (t : Time) : State := port 0 (fun q => { q with state := .isolated, holdEnd := some t }) lent
def unlinked (s : State) : State := { s with pins := { s.pins with link := Vector.replicate 6 false } }
def asksRelease : Request := request 3 0 0 3 1
def restored : State := port 0 (fun q => { q with k := 2, lastRestore := some (T - 600000000) }) lent

/-- The state a request is served in: it is out of the inbox, and its chain is returned. -/
def served (s : State) (r : Request) : State := (s.modAdmin (fun m => { m with inbox := m.inbox.tail })).releaseFrom r.chain

/-- A state with nothing called for; one with a header staged on WEST. -/
def quiet (s : State) : State := spool (fun q => { q with outbox := [] }) s
def starStaged (h : StarHeader) (s : State) : State := port 0 (fun q => { q with staging := some h }) s
def staged (h : TrunkHeader) (s : State) : State := unit .west (fun u => { u with staging := some h }) s

/-- A test that a directory has no record of our own that names an entry, but for one number. -/
def ownedOnlyBy (m : Byte) (i : EntryNo) (s : State) : Bool :=
  (List.range 256).all (fun k => match s.dir (BitVec.ofNat 8 k) with
    | some ⟨.own _ _ j, _, _, _, _⟩ => decide (j ≠ i ∨ BitVec.ofNat 8 k = m)
    | _ => true)

/-- A state with one command waiting. -/
def waiting (c : Instr) (s : State) : State := { s with pending := [c] }

/-- A watch for an unheard peer, and a separator due. -/
def watching (w : LoopWatch) (s : State) : State := health (fun h => { h with watches := [w] }) s
def separatorNext (s : State) : State := spool (fun p => { p with separatorDue := true }) s

/-- Records of node A: another junction's, one or two of them last heard together; and one of our own beside one of another's. -/
def remoteA (t : Time) : DirRecord := ⟨.remote .west nodeA peerId, t, 0, none, none⟩
def ownA : DirRecord := ⟨.own (some 0) nodeA 3, 0, 0, none, none⟩
def foundOne : State := known 200 (remoteA 5) lent
def foundTie : State := known 160 (remoteA 5) foundOne
def foundOwn : State := known 210 ownA foundTie

/-- A head record that has begun; a waiting record of the control class. -/
def current : TrunkRecord := { relayed with begun := true, phase := .sending }
def controlled : TrunkRecord := { relayed with cls := .control }

/-- A restore or a partition is asked for EAST, which is PARTITIONING with an attempt cut short. -/
def cuttingEast (r : Request) : State :=
  asked r (side .east (fun h => { h with state := .partitioning, reason := some .loop }) (cutting .east lent))

/-- Entry 2 probes; EAST is cut off and WEST's score is `h`, with a burst of WEST received in full in block 0, or listened to. -/
def lastJoined (h : Nat) : State :=
  side .west (fun v => { v with score := h }) (cut .admin (ent 2 (nodeEntry nodeA 0 (.probing 209 (.running (T - 8)))) lent))
def receivingIn (m : RxMode) (c : Option Chain) : State :=
  unit .west (fun u => { u with rx := some { burst [1, 2, 3] with mode := m, chain := c } }) (oneBlock (.side .west) [1, 2, 3] (lastJoined 512))
def restoreDue : State := side .west (fun h => { h with pendingRestore := true }) (partitioning .missed)

/-- Ports that are UP, the others DOWN. -/
def upOf (ps : List PortId) (s : State) : State :=
  (List.finRange 6).foldl (fun s q => port q (fun v => { v with state := if ps.contains q then .up else .down }) s) s

/-- Entry 2, with 14 candidates tried; no side JOINED, its probe paused. -/
def pausedProber (k : Time) : AliasEntry := { prober 1 1 0 with phase := .probing 209 (.paused k) }
def pausedProbe : State := ent 2 (pausedProber 7) bothCut
def contendingAllKnown : State := (List.range 96).foldl (fun s k => known (BitVec.ofNat 8 (128 + k)) (legacy .west) s) (contending 3)
def contendingCut : State := ent 2 (triedProber 14) bothCut

/-- Records that an announcement meets at the other side, one with four moves counted; and two of the peer's that it does not name. -/
def remoteAt (x : Side) (m : Nat) (w : Option Time) : DirRecord := ⟨.remote x nodeB peerId, 3, m, w, none⟩
def peerKnown : State := known 170 (remoteAt .east 0 none) (known 150 (remoteAt .west 0 none) lent)

/-- Every slot holds a job: unfinished; or finished, slots 3 and 5 first and together. -/
def everySlot (f : Slot → Job) : State := (List.finRange 12).foldl (fun s k => slot k (f k) s) ready
def unfinishedIn (k : Slot) : Job := { job0 with number := BitVec.ofNat 8 (k.val + 20), state := .ready, window := 0 }
def finishedIn (k : Slot) : Job := { finishedJob (if k = 3 ∨ k = 5 then 90 else 80) with number := BitVec.ofNat 8 (k.val + 20), window := 0 }

/-- A peer heard on EAST with sequence 4; 16 watches of others, the first two expiring together. -/
def heardPeer (t : Time) : RosterEntry := ⟨peerId, 150, ⟨none, some t⟩, ⟨none, some 4⟩, false, none⟩
def sixteenWatches : List LoopWatch := (List.range 16).map (fun k => ⟨BitVec.ofNat 48 (k + 900), .west, 1, if k < 2 then T else T + k⟩)
def echoing : State := { heard with transmissions := [⟨9, 4, 1, .east⟩] }

/-- The first word of the stored length, or the word of the data, of the job that prints is uncorrectable. -/
def struckData (o : Nat) (s : State) : State := check (fun c => { c with bad := [⟨⟨.blockMemory, 0, o⟩, .uncorrectable 5, 3⟩] }) s

/-- Station 23's jobs: RECEIVING in slot 4, READY in slot 6. -/
def lostReceiving : State := chained { job0 with chain := some chain0, nextIndex := 1 }
def lostReady : State := readyBehind (ordered (printingJob 1))

/-- A job whose name has 16 bytes; a latched error with a corrected word behind it. -/
def sixteenLetters : Job := { job0 with name := List.replicate 16 65 }
def latched : State :=
  check (fun c => { c with capture := some ⟨⟨.directory, 254, 5⟩, 127, .scrubber⟩, lastCorrected := some ⟨.jobRecords, 11, 7⟩ }) lent

/-- Number `k` of an entry's walk fits, once the number it probes has joined the avoid list. -/
def afterLoss (s : State) (c : AliasEntry) (n : Byte) (k : Nat) : Bool :=
  let m := BitVec.ofNat 8 (s.cfg.lendLow + (c.ident.toNat % 96 + k) % 96)
  decide (s.dir m = none) && decide (m ≠ n) && !s.lend.avoid.contains m &&
  (List.finRange 32).all (fun i => decide (i = 2) || (match s.entry i with | some d => decide (d.phase.number ≠ some m) | none => true))

/-- The numbers that an ANNOUNCE names, and the directory once they are written; an ANNOUNCE that names 170 too. -/
def namedBy (a : Announce) : List Byte := a.numbers.map (·.1)
def afterWrites (s : State) (a : Announce) (x : Side) : State := a.numbers.foldl (fun t m => t.upkeepWrite m.1 m.2 a.junction x) s
def announcedBoth (j : Ident) : Announce := { announced j with entries := [⟨170, nodeB, false⟩] }

/-- Sixteen watches of other peers stand. -/
def sixteenWatched : State := health (fun h => { h with watches := sixteenWatches }) lent

/-- An INSPECT-REQ of an operation and a command, in block 0, as it is handed over. -/
def handedRequest (op command : Byte) : State := oneBlock (.side .west) (fr 131 23 72 1 [op, 1, 0, command, 0]) lent

/-- A jam that ends the attempt of WEST, which began `t` ago, or that of the attempt's inverted check; WEST PARTITIONING. -/
def flushedBy (t : Time) : State :=
  leaving (unit .west (fun u =>
    { u with queue := [{ collided 12 with phase := .flushAfterJam }], sending := .jam (T - t), idleSince := none })
      (oneBlock (.star 2) (fr 9 17 1 5 [1, 2, 3]) lent))
def cutJammed (t : Time) : State := leaving (sendingNow (.cutJam (T - t)))

/-- Port 1 UP with the nodes of `upPort`, its first record of two being sent, and a frame coming in whose block is block 1. -/
def fullPort : State :=
  let taken := (List.range 3).foldl (fun s _ => (s.requestBlock (.star 0) none).1) upPort
  port 0 (fun q =>
    { q with
      queue := [starSending, { switched with head := 2 }], sending := some (T - 80), lineOut := starLine
      rx := some { burst [1] with chain := some ⟨1, 1, 1⟩ } }) taken

/-- Everything that a pool recovery ends is about: an attempt on WEST, an answer on EAST, a frame sent and one received on port 1,
and the job that prints, with a byte in hand or with none; the list of retired blocks has these. -/
def besetPool (l : List BlockNo) (h : Option InHand) : State :=
  let s := unit .west (fun u =>
    { u with
      queue := [ours, relayed], sending := .attempt (T - 100), lineOut := fr 9 17 1 5 [1, 2, 3], idleSince := none }) (ordered (printingJob 1))
  let s := unit .east (fun u => { u with queue := [relayed], sending := .answer true (T - 40), idleSince := none }) s
  let s := port 0 (fun q => { q with queue := [starSending, switched], sending := some (T - 80), lineOut := starLine, rx := some (burst [1]) }) s
  let s := spool (fun p => { p with inHand := h, separatorDue := true }) (slot 1 windowless s)
  check (fun c => { c with test := some (target, T - 5), waiting := [⟨3, 1⟩] }) (pool (fun p => { p with retired := l, retiredCount := l.length }) s)

/-- A star frame of node A came in on port 1 without a block: an answer, one for a number in quarantine, or one that was OVERRUN. -/
def blockless (d : Ident) (k : Byte) (decode : Decode) (overrun : Bool) : State :=
  port 0 (fun q =>
    { q with rx := some { burst (sfr d nodeA k 7 [1, 2, 3]) with decode := some decode, overrun := overrun } }) twoNodes
def toB (k : Byte) : StarHeader := ⟨nodeB, nodeA, k, 7, 3⟩
def toAll : StarHeader := ⟨0xFFFFFFFFFFFF, nodeA, 1, 7, 3⟩
def wholeStar (s : State) : Reception := starRxOf (starAfter s 0 []) 0

/-! ### WellFormed refuses what no event can bring -/

/-- An upset of a word of block memory. -/
def strikes (i o : Nat) : Moment := ⟨T, [⟨⟨.blockMemory, i, o⟩, .single⟩]⟩

theorem test_wf_word_of_a_block : (Instr.read (strikes 255 31)).wellFormed = true := by decide
theorem test_wf_word_beyond_the_block : (Instr.read (strikes 255 32)).wellFormed = false := by decide
theorem test_wf_block_beyond_the_memory : (Instr.read (strikes 256 0)).wellFormed = false := by decide
theorem test_wf_directory_item_0 : (Instr.read ⟨T, [⟨⟨.directory, 0, 0⟩, .single⟩]⟩).wellFormed = false := by decide
theorem test_wf_image_of_65 : (Instr.settingsLoadEnd (at_ T) (List.replicate 65 0)).wellFormed = false := by decide +kernel
theorem test_wf_header_of_5 : (Instr.headerStaged (at_ T) .west [1, 2, 3, 4, 5]).wellFormed = false := by decide
theorem test_wf_star_header_of_17 : (Instr.starHeaderStaged (at_ T) 0 (List.replicate 17 1)).wellFormed = false := by decide
theorem test_wf_block_request_without_bytes : (Instr.blockRequest (at_ T) (.star 0) []).wellFormed = false := by decide
theorem test_wf_overlong_without_bytes : (Instr.trunkOverlongByte (at_ T) .west []).wellFormed = false := by decide
theorem test_wf_overlong_of_522 : (Instr.trunkOverlongByte (at_ T) .west (List.replicate 522 1)).wellFormed = false := by
  decide +kernel
theorem test_wf_star_overlong_without_bytes : (Instr.starOverlongByte (at_ T) 0 []).wellFormed = false := by decide
theorem test_wf_star_overlong_of_1522 : (Instr.starOverlongByte (at_ T) 0 (List.replicate 1522 1)).wellFormed = false := by
  decide +kernel
theorem test_wf_node_0 : (Instr.nodeAgeExpiry (at_ T) 0 0).wellFormed = false := by decide
theorem test_wf_node_broadcast : (Instr.nodeAgeExpiry (at_ T) 0 0xFFFFFFFFFFFF).wellFormed = false := by decide
theorem test_wf_directory_number_0 : (Instr.directoryAgeExpiry (at_ T) 0).wellFormed = false := by decide
theorem test_wf_quarantine_number_255 : (Instr.quarantineExpiry (at_ T) 255).wellFormed = false := by decide

/-! ### Worked values -/

/-- The bytes "123456789". The two check values are those the published catalogues of CRCs give for the parameters of R4 and R6. -/
def digits : List Byte := [0x31, 0x32, 0x33, 0x34, 0x35, 0x36, 0x37, 0x38, 0x39]
theorem test_trunk_check : trunkCheck digits = 0x29B1 := by decide +kernel
theorem test_star_check : starCheck digits = 0xFC891918 := by decide +kernel

/-- R22, the worked table and the RELAY-ONLY case. -/
theorem test_backoff_table :
    [backoffSlots 131 1 17, backoffSlots 131 2 18, backoffSlots 131 3 19, backoffSlots 131 4 20, backoffSlots 131 5 21, backoffSlots 0 1 0]
      = [3, 7, 11, 15, 19, 3] := by decide

/-- R138, the worked windows: SpoolCap 128, two jobs RECEIVING. -/
theorem test_receive_windows :
    [receiveWindow 128 40 2 true, receiveWindow 128 40 2 false, receiveWindow 128 110 2 true, receiveWindow 128 110 2 false]
      = [8, 8, 4, 0] := by decide

/-- R153: decay from 1, 4, 1020 and 1023, with no points and with 255. -/
theorem test_scores :
    [newScore 1 ⟨0, 0, 0, 0, 0, 0, 0, false⟩, newScore 4 ⟨0, 0, 0, 0, 0, 0, 0, false⟩, newScore 1020 ⟨0, 0, 0, 9, 0, 0, 0, false⟩,
      newScore 1023 ⟨0, 0, 0, 9, 0, 0, 0, false⟩, newScore 0 ⟨1, 1, 1, 1, 1, 4, 3, true⟩]
      = [0, 3, 1020, 1022, 4 + 2 + 8 + 32 + 4 + 1 + 64] := by decide

/-- R113: the walk of 02-60-1C-00-04-11 over the default range. -/
theorem test_candidate_walk :
    (candidateWalk Settings.default nodeA).take 2 = [209, 210] ∧ (candidateWalk Settings.default nodeA)[15]? = some 128 := by decide +kernel

/-- R165, the port through three isolations: counts and holds in seconds. -/
theorem test_isolation_holds :
    newIsolationCount 1 (some (130 * Config.sec)) (150 * Config.sec) = 2 ∧
    newIsolationCount 2 (some (210 * Config.sec)) (260 * Config.sec) = 3 ∧
    newIsolationCount 3 (some (300 * Config.sec)) (500 * Config.sec) = 1 ∧
    [isolationHold Settings.default 1, isolationHold Settings.default 2, isolationHold Settings.default 3]
      = [30 * Config.sec, 60 * Config.sec, 120 * Config.sec] := by decide

/-- R1, R6, R55: the shortest frames, and the blocks of the longest. -/
theorem test_frame_lengths :
    [trunkFrameLength 0, trunkFrameLength 512, starFrameLength 0, starFrameLength 1500, blocksFor 520, blocksFor 1520]
      = [16, 520, 24, 1520, 5, 12] := by decide

/-- No word spells a command. -/
theorem test_no_word_spells_a_command : decodeTableWord 8 0 = none := rfl

/-! ### Single commands -/

/-- The state a command leads to (the state itself where it does not go on). -/
def stateAfter (c : Instr) (s : State) : State := match exec c s with
  | .next t => t
  | _ => s

/-- R30: carrier on an idle side begins a burst. -/
theorem test_carrier_begins_a_burst : ((stateAfter (.carrierOn (at_ T) .west) lent).unit .west).rx.isSome = true := by decide +kernel

/-- R21, R22: a collision counts on the side and turns the attempt to the jam. -/
theorem test_collision_jams :
    ((stateAfter (.collision (at_ T) .west) (sent (collided 10) 640 255)).unit .west).c = 0 := by decide +kernel

/-- R27: a collision with the inverted check stops it and is counted. -/
theorem test_collision_stops_the_check :
    ((stateAfter (.collision (at_ T) .west) (cutting .west lent)).unit .west).sending = .cutJam T ∧
    ((stateAfter (.collision (at_ T) .west) (cutting .west lent)).unit .west).lineOut.length = 21 ∧
    ((stateAfter (.collision (at_ T) .west) (cutting .west lent)).unit .west).c = lent.trunk.west.c + 1 := by decide +kernel

/-- R27, R38: a PARTITIONING side is PARTITIONED when the inverted check has gone out, and not before. -/
theorem test_partition_waits_for_the_check :
    ((stateAfter (.carrierOn (at_ (T + 39)) .east) (leaving (cutting .west lent))).side .west).state = .partitioning ∧
    ((stateAfter (.carrierOn (at_ (T + 40)) .east) (leaving (cutting .west lent))).side .west).state = .partitioned := by decide +kernel

/-- R42: link presence makes a DOWN port UP. -/
theorem test_link_up : ((stateAfter (.linkPresent (at_ T) 0) down).port 0).state = .up := by decide +kernel

/-- R163, R164: 16 check errors isolate a port for 30 s. -/
theorem test_star_window_isolates :
    ((stateAfter (.starWindowEnd (at_ T) 0) (starWindow ⟨16, 0, 0⟩ upPort)).port 0).state = .isolated ∧
    ((stateAfter (.starWindowEnd (at_ T) 0) (starWindow ⟨16, 0, 0⟩ upPort)).port 0).holdEnd = some (T + 30 * Config.sec) := by decide +kernel

/-- R43: a frame whose first bytes came before the isolation, reported behind it, adds one to the isolated discards, and one that comes
later adds none for it; at a loss of link it adds one to the cut frames. -/
theorem test_isolation_counts_first_bytes :
    let after (c : Instr) (n : Nat) := ((stateAfter (.starFrameEnd (at_ (T + 40)) 0 (run255 n)) (stateAfter c (starWindow ⟨16, 0, 0⟩ lent))).port 0).totals
    ((after (.starWindowEnd (at_ T) 0) 6).toList.drop 2).take 6 = [0, 0, 0, 0, 0, 1] ∧
    ((after (.starWindowEnd (at_ T) 0) 5).toList.drop 2).take 6 = [0, 1, 0, 0, 0, 1] ∧
    ((after (.linkLost (at_ T) 0) 6).toList.drop 2).take 6 = [0, 0, 0, 0, 1, 0] ∧
    ((after (.linkLost (at_ T) 0) 5).toList.drop 2).take 6 = [0, 0, 0, 0, 0, 0] := by decide +kernel

/-- R54: a frame whose first bytes came before a recovery is received for its class alone, and one that begins with it in full. -/
theorem test_recovery_meets_first_bytes :
    let s := (lent.orderRecovery 9).modPool (fun p => { p with recovering := false })
    let mode (n : Nat) := ((stateAfter (.starHeaderStaged (at_ (T + 120)) 0 (run255 n)) s).port 0).rx.map (fun r => r.mode)
    mode 16 = some .countOnly ∧ mode 15 = some .full := by decide +kernel

/-- R154: at a score of 512 a side is cut. -/
theorem test_score_cuts_at_512 : ((stateAfter (.sideWindowEnd (at_ T) .west) (windowed ⟨0, 0, 0, 9, 0, 0, 0, false⟩ 343 0)).side .west).state
    = .partitioned := by decide +kernel

/-- R114: an entry at probe time 750 ms with three CLAIMs sent becomes BOUND. -/
theorem test_alias_binds :
    ((stateAfter (.aliasBind (at_ T) 2) (probing 3 3 7500000)).entry 2).map (fun c => c.phase) = some (.bound 209) := by decide +kernel

/-- R122: an entry that binds while its node's port is DOWN is HELD for the alias hold of 120 s. -/
theorem test_alias_is_held_on_a_down_port :
    ((stateAfter (.aliasBind (at_ T) 2) (port 0 (fun q => { q with state := .down }) (probing 3 3 7500000))).entry 2).map
      (fun c => c.phase) = some (.held 209 (T + 120 * Config.sec)) := by decide +kernel

/-- R116, R127: an ANNOUNCE of 209 and 210 takes both from an entry probing for 209, with neither side JOINED. -/
theorem test_announce_takes_each_candidate :
    (((side .west (fun h => { h with state := .partitioned }) (cut .admin (probing 2 2 100))).announceEntries
      ⟨0x00400B009000, 209, none, [⟨210, 77, false⟩]⟩ .west).entry 2).map (fun c => (c.phase, c.tried)) =
      some (.probing 211 (.paused 0), 3) := by decide +kernel

/-- R177: a full reset starts LOADING. -/
theorem test_full_reset : (stateAfter (.fullReset (at_ T)) lent).admin.device = .loading := by decide +kernel

/-! ### Witnesses

One theorem for each statement that has hypotheses: concrete states and operands that meet them. A theorem of several groups has one
group for each clause, at the boundary of its range where it has one. A hypothesis met by a group above is not repeated below it. -/

theorem witness_StepRunsTheFrontCommand :
    (waiting (.carrierOn (at_ T) .west) run).pending = [.carrierOn (at_ T) .west] ∧
    run.pending = [] ∧
    ((at_ T).upsets = [] ∧
      run.now ≤ (at_ T).time ∧
      (run.unit .west).sending = .silent ∧ (run.unit .east).sending = .silent) := by
  refine ⟨?_, ?_, ?_⟩ <;> decide +kernel

theorem witness_FullResetAndItsRelease :
    (halted.arrive (at_ T)).admin.device = .loading ∧
    (halted.arrive (at_ T)).pins.resetAsserted = true := by
  decide +kernel

theorem witness_SettingsLoadEndJudgesTheImage :
    (loading.arrive (at_ T)).admin.device = .loading ∧
    (loading.arrive (at_ T)).admin.reading = true ∧
    (loading.arrive (at_ T)).spool.inHand = none ∧
    (loading.arrive (at_ T)).spool.initPulse = none ∧
    (∀ (i : EntryNo), 2 ≤ ↑i → (loading.arrive (at_ T)).entry i = none) := by
  decide +kernel

theorem witness_LampsFollowTheirConditions :
    halted.admin.device = .loading ∧
    lent.admin.device ≠ .loading ∧
    ((relayOnly.arrive (at_ T)).admin.device = .relayOnly ∧
      (relayOnly.arrive (at_ T)).admin.flashAt = some T ∧
      T ≤ (relayOnly.arrive (at_ T)).now) ∧
    ((lent.arrive (at_ T)).admin.device ≠ .relayOnly ∨ ∀ (t : Time), (lent.arrive (at_ T)).admin.flashAt = some t → (lent.arrive (at_
      T)).now < t) := by
  refine ⟨?_, ?_, ?_, ?_⟩ <;> decide +kernel

theorem witness_RestartIsPendingReleasesAndResets :
    (calm (askRestart.arrive (at_ T)) = true ∧
      (askRestart.arrive (at_ T)).admin.device = .run ∧
      (askRestart.arrive (at_ T)).admin.inbox = [request 3 0 0 5 0] ∧
      (request 3 0 0 5 0).op = 3 ∧
      (request 3 0 0 5 0).command = 5 ∧
      (served (askRestart.arrive (at_ T)) (request 3 0 0 5 0)).isAdmin (request 3 0 0 5 0).requester = true ∧
      (askRestart.arrive (at_ T)).admin.restartPending = none) ∧
    (calm (askRestartAgain.arrive (at_ T)) = true ∧
      (askRestartAgain.arrive (at_ T)).admin.device = .run ∧
      (askRestartAgain.arrive (at_ T)).admin.inbox = [request 3 0 0 5 0] ∧
      (served (askRestartAgain.arrive (at_ T)) (request 3 0 0 5 0)).isAdmin (request 3 0 0 5 0).requester = true ∧
      (askRestartAgain.arrive (at_ T)).admin.restartPending = some (T - 5)) ∧
    (calm (restartDue.arrive (at_ T)) = true ∧
      (restartDue.arrive (at_ T)).admin.device = .run ∧
      (restartDue.arrive (at_ T)).admin.restartPending = some (T - 2500000) ∧
      (restartDue.arrive (at_ T)).admin.releasesSent = none ∧
      T - 2500000 + 250 * Config.ms ≤ (restartDue.arrive (at_ T)).now) ∧
    ((restartReady.arrive (at_ T)).admin.device = .run ∧
      (restartReady.arrive (at_ T)).admin.releasesSent = some (T - 2500000) ∧
      T - 2500000 + 250 * Config.ms ≤ (restartReady.arrive (at_ T)).now) := by
  refine ⟨?_, ?_, ?_, ?_⟩ <;> decide +kernel

theorem witness_ReadsAnswerAndClearTheItem :
    (calm ((asked (request 1 1 0 0 0) lent).arrive (at_ T)) = true ∧
      ((asked (request 1 1 0 0 0) lent).arrive (at_ T)).admin.device = .run ∧
      ((asked (request 1 1 0 0 0) lent).arrive (at_ T)).admin.inbox = [request 1 1 0 0 0] ∧
      (request 1 1 0 0 0).op = 1) ∧
    (calm ((asked (request 2 9 6 0 0) lent).arrive (at_ T)) = true ∧
      ((asked (request 2 9 6 0 0) lent).arrive (at_ T)).admin.device = .run ∧
      ((asked (request 2 9 6 0 0) lent).arrive (at_ T)).admin.inbox = [request 2 9 6 0 0] ∧
      (request 2 9 6 0 0).op = 2) ∧
    (2 ≤ 2 ∧
      2 ≤ 4 ∧
      4 ≤ 4) ∧
    (lent.entry 2 = none ∧
      lent.entry 0 = some junctionEntry ∧
      lent.dir 254 = none ∧
      lent.dir 23 = some (legacy .west) ∧
      lent.peer 15 = none ∧
      (rostered (peer (some 4) none) T).peer 4 = some (peer (some 4) none) ∧
      lent.job 11 = none ∧
      (slot 0 sixteenLetters lent).job 0 = some sixteenLetters ∧
      sixteenLetters.name.length ≤ 16 ∧
      (34 : Nat) < 35 ∧
      lent.check.capture = none ∧
      latched.check.capture = some ⟨⟨.directory, 254, 5⟩, 127, .scrubber⟩ ∧
      lent.check.lastCorrected = none ∧
      latched.check.lastCorrected = some ⟨.jobRecords, 11, 7⟩ ∧
      lent.cfg.adminList.length = 4 ∧
      (11 : Nat) < 12) := by
  refine ⟨?_, ?_, ?_, ?_⟩ <;> decide +kernel

/-- A request of an operation and a command as it is handed over, with sound words. -/
def isHanded (op command : Byte) : Bool :=
  let s := handedRequest op command
  s.check.bad.isEmpty && !s.pool.recovering && decide (s.storedPayload (s.blocksOf inBlock0.first) .trunk = [op, 1, 0, command, 0])

theorem witness_ReadsAnswerAndClearTheItem_handed :
    isHanded 0 0 = true ∧ isHanded 4 0 = true ∧ isHanded 3 0 = true ∧ isHanded 3 6 = true ∧ isHanded 1 0 = true ∧ isHanded 2 0 = true ∧
    isHanded 3 1 = true ∧ isHanded 3 5 = true := by
  refine ⟨?_, ?_, ?_, ?_, ?_, ?_, ?_, ?_⟩ <;> decide +kernel

theorem witness_SideCommandsActOnTheSide :
    (calm ((noAdmin (asked (request 3 0 0 1 0) lent)).arrive (at_ T)) = true ∧
      ((noAdmin (asked (request 3 0 0 1 0) lent)).arrive (at_ T)).admin.device = .run ∧
      ((noAdmin (asked (request 3 0 0 1 0) lent)).arrive (at_ T)).admin.inbox = [request 3 0 0 1 0] ∧
      (request 3 0 0 1 0).op = 3 ∧
      (request 3 0 0 1 0).command = 1 ∧
      (served ((noAdmin (asked (request 3 0 0 1 0) lent)).arrive (at_ T)) (request 3 0 0 1 0)).isAdmin (request 3 0 0 1 0).requester =
        false) ∧
    (calm ((asked (request 3 0 0 1 2) lent).arrive (at_ T)) = true ∧
      ((asked (request 3 0 0 1 2) lent).arrive (at_ T)).admin.device = .run ∧
      ((asked (request 3 0 0 1 2) lent).arrive (at_ T)).admin.inbox = [request 3 0 0 1 2] ∧
      (request 3 0 0 1 2).op = 3 ∧
      (request 3 0 0 1 2).command = 1 ∧
      (served ((asked (request 3 0 0 1 2) lent).arrive (at_ T)) (request 3 0 0 1 2)).isAdmin (request 3 0 0 1 2).requester = true ∧
      sideOf (request 3 0 0 1 2).argument = none) ∧
    (calm ((asked (request 3 0 0 1 0) lent).arrive (at_ T)) = true ∧
      ((asked (request 3 0 0 1 0) lent).arrive (at_ T)).admin.device = .run ∧
      ((asked (request 3 0 0 1 0) lent).arrive (at_ T)).admin.inbox = [request 3 0 0 1 0] ∧
      (served ((asked (request 3 0 0 1 0) lent).arrive (at_ T)) (request 3 0 0 1 0)).isAdmin (request 3 0 0 1 0).requester = true ∧
      sideOf (request 3 0 0 1 0).argument = some .west ∧
      ((served ((asked (request 3 0 0 1 0) lent).arrive (at_ T)) (request 3 0 0 1 0)).side .west).state = .joined) ∧
    (calm ((asked (request 3 0 0 1 1) (cut .admin lent)).arrive (at_ T)) = true ∧
      ((asked (request 3 0 0 1 1) (cut .admin lent)).arrive (at_ T)).admin.device = .run ∧
      ((asked (request 3 0 0 1 1) (cut .admin lent)).arrive (at_ T)).admin.inbox = [request 3 0 0 1 1] ∧
      (request 3 0 0 1 1).op = 3 ∧
      (request 3 0 0 1 1).command = 1 ∧
      (served ((asked (request 3 0 0 1 1) (cut .admin lent)).arrive (at_ T)) (request 3 0 0 1 1)).isAdmin (request 3 0 0 1 1).requester =
        true ∧
      sideOf (request 3 0 0 1 1).argument = some .east ∧
      ((served ((asked (request 3 0 0 1 1) (cut .admin lent)).arrive (at_ T)) (request 3 0 0 1 1)).side .east).state = .partitioned ∧
      (∀ (i : EntryNo) (en : AliasEntry), (served ((asked (request 3 0 0 1 1) (cut .admin lent)).arrive (at_ T)) (request 3 0 0 1
        1)).entry i = some en → en.phase.isProbing = false)) ∧
    (calm ((noAdmin (asked (request 3 0 0 2 0) lent)).arrive (at_ T)) = true ∧
      ((noAdmin (asked (request 3 0 0 2 0) lent)).arrive (at_ T)).admin.device = .run ∧
      ((noAdmin (asked (request 3 0 0 2 0) lent)).arrive (at_ T)).admin.inbox = [request 3 0 0 2 0] ∧
      (request 3 0 0 2 0).op = 3 ∧
      (request 3 0 0 2 0).command = 2 ∧
      (served ((noAdmin (asked (request 3 0 0 2 0) lent)).arrive (at_ T)) (request 3 0 0 2 0)).isAdmin (request 3 0 0 2 0).requester =
        false) ∧
    (calm ((asked (request 3 0 0 2 2) lent).arrive (at_ T)) = true ∧
      ((asked (request 3 0 0 2 2) lent).arrive (at_ T)).admin.device = .run ∧
      ((asked (request 3 0 0 2 2) lent).arrive (at_ T)).admin.inbox = [request 3 0 0 2 2] ∧
      (request 3 0 0 2 2).op = 3 ∧
      (request 3 0 0 2 2).command = 2 ∧
      (served ((asked (request 3 0 0 2 2) lent).arrive (at_ T)) (request 3 0 0 2 2)).isAdmin (request 3 0 0 2 2).requester = true ∧
      sideOf (request 3 0 0 2 2).argument = none) ∧
    (calm ((asked (request 3 0 0 2 1) (cut .loop lent)).arrive (at_ T)) = true ∧
      ((asked (request 3 0 0 2 1) (cut .loop lent)).arrive (at_ T)).admin.device = .run ∧
      ((asked (request 3 0 0 2 1) (cut .loop lent)).arrive (at_ T)).admin.inbox = [request 3 0 0 2 1] ∧
      (request 3 0 0 2 1).op = 3 ∧
      (request 3 0 0 2 1).command = 2 ∧
      (served ((asked (request 3 0 0 2 1) (cut .loop lent)).arrive (at_ T)) (request 3 0 0 2 1)).isAdmin (request 3 0 0 2 1).requester =
        true ∧
      sideOf (request 3 0 0 2 1).argument = some .east ∧
      ((served ((asked (request 3 0 0 2 1) (cut .loop lent)).arrive (at_ T)) (request 3 0 0 2 1)).side .east).state = .partitioned) ∧
    (calm ((asked (request 3 0 0 2 1) lent).arrive (at_ T)) = true ∧
      ((asked (request 3 0 0 2 1) lent).arrive (at_ T)).admin.device = .run ∧
      ((asked (request 3 0 0 2 1) lent).arrive (at_ T)).admin.inbox = [request 3 0 0 2 1] ∧
      (served ((asked (request 3 0 0 2 1) lent).arrive (at_ T)) (request 3 0 0 2 1)).isAdmin (request 3 0 0 2 1).requester = true ∧
      ((served ((asked (request 3 0 0 2 1) lent).arrive (at_ T)) (request 3 0 0 2 1)).side .east).state = .joined ∧
      ((served ((asked (request 3 0 0 2 1) lent).arrive (at_ T)) (request 3 0 0 2 1)).side (otherSide .east)).state = .joined ∧
      ((served ((asked (request 3 0 0 2 1) lent).arrive (at_ T)) (request 3 0 0 2 1)).unit .east).inFlight = false ∧
      ((served ((asked (request 3 0 0 2 1) lent).arrive (at_ T)) (request 3 0 0 2 1)).side .east).pendingRestore = false ∧
      ((served ((asked (request 3 0 0 2 1) lent).arrive (at_ T)) (request 3 0 0 2 1)).unit .east).queue = [] ∧
      ((served ((asked (request 3 0 0 2 1) lent).arrive (at_ T)) (request 3 0 0 2 1)).unit .east).rx = none) ∧
    (calm ((asked (request 3 0 0 2 1) (cutting .east lent)).arrive (at_ T)) = true ∧
      ((asked (request 3 0 0 2 1) (cutting .east lent)).arrive (at_ T)).admin.device = .run ∧
      ((asked (request 3 0 0 2 1) (cutting .east lent)).arrive (at_ T)).admin.inbox = [request 3 0 0 2 1] ∧
      (served ((asked (request 3 0 0 2 1) (cutting .east lent)).arrive (at_ T)) (request 3 0 0 2 1)).isAdmin (request 3 0 0 2 1).requester
        = true ∧
      ((served ((asked (request 3 0 0 2 1) (cutting .east lent)).arrive (at_ T)) (request 3 0 0 2 1)).side .east).state = .joined ∧
      ((served ((asked (request 3 0 0 2 1) (cutting .east lent)).arrive (at_ T)) (request 3 0 0 2 1)).side (otherSide .east)).state =
        .joined ∧
      ((served ((asked (request 3 0 0 2 1) (cutting .east lent)).arrive (at_ T)) (request 3 0 0 2 1)).unit .east).inFlight = true) ∧
    (((cuttingEast (request 3 0 0 1 1)).arrive (at_ T)).check.bad = [] ∧
      ((cuttingEast (request 3 0 0 1 1)).arrive (at_ T)).pool.recovering = false ∧
      ((cuttingEast (request 3 0 0 1 1)).arrive (at_ T)).spool.outbox = [] ∧
      ((cuttingEast (request 3 0 0 1 1)).arrive (at_ T)).admin.device = .run ∧
      ((cuttingEast (request 3 0 0 1 1)).arrive (at_ T)).admin.inbox = [(request 3 0 0 1 1)] ∧
      (request 3 0 0 1 1).op = 3 ∧
      (served ((cuttingEast (request 3 0 0 1 1)).arrive (at_ T)) (request 3 0 0 1 1)).isAdmin (request 3 0 0 1 1).requester = true ∧
      sideOf (request 3 0 0 1 1).argument = some .east ∧
      ((served ((cuttingEast (request 3 0 0 1 1)).arrive (at_ T)) (request 3 0 0 1 1)).side .east).state = .partitioning ∧
      ((served ((cuttingEast (request 3 0 0 1 1)).arrive (at_ T)) (request 3 0 0 1 1)).unit .east).inFlight = true ∧
      (((served ((cuttingEast (request 3 0 0 1 1)).arrive (at_ T)) (request 3 0 0 1 1)).side (otherSide .east)).state ≠ .partitioning ∨
        ((served ((cuttingEast (request 3 0 0 1 1)).arrive (at_ T)) (request 3 0 0 1 1)).unit (otherSide .east)).inFlight = true) ∧
      (request 3 0 0 1 1).command = 1) ∧
    (((cuttingEast (request 3 0 0 2 1)).arrive (at_ T)).check.bad = [] ∧
      ((cuttingEast (request 3 0 0 2 1)).arrive (at_ T)).pool.recovering = false ∧
      ((cuttingEast (request 3 0 0 2 1)).arrive (at_ T)).spool.outbox = [] ∧
      ((cuttingEast (request 3 0 0 2 1)).arrive (at_ T)).admin.device = .run ∧
      ((cuttingEast (request 3 0 0 2 1)).arrive (at_ T)).admin.inbox = [(request 3 0 0 2 1)] ∧
      (request 3 0 0 2 1).op = 3 ∧
      (served ((cuttingEast (request 3 0 0 2 1)).arrive (at_ T)) (request 3 0 0 2 1)).isAdmin (request 3 0 0 2 1).requester = true ∧
      sideOf (request 3 0 0 2 1).argument = some .east ∧
      ((served ((cuttingEast (request 3 0 0 2 1)).arrive (at_ T)) (request 3 0 0 2 1)).side .east).state = .partitioning ∧
      ((served ((cuttingEast (request 3 0 0 2 1)).arrive (at_ T)) (request 3 0 0 2 1)).unit .east).inFlight = true ∧
      (((served ((cuttingEast (request 3 0 0 2 1)).arrive (at_ T)) (request 3 0 0 2 1)).side (otherSide .east)).state ≠ .partitioning ∨
        ((served ((cuttingEast (request 3 0 0 2 1)).arrive (at_ T)) (request 3 0 0 2 1)).unit (otherSide .east)).inFlight = true) ∧
      (request 3 0 0 2 1).command = 2) := by
  refine ⟨?_, ?_, ?_, ?_, ?_, ?_, ?_, ?_, ?_, ?_, ?_⟩ <;> decide +kernel

theorem witness_FormedRepliesAndNoticesAreQueued :
    (calm (lent) = true ∧
      Memory.wf lent.memory = true ∧
      grants (lent) (.internal) (0) = true ∧
      (request 1 1 0 0 0).requester = Requester.station 23 ∧
      23 ≠ 0 ∧
      23 ≠ 255 ∧
      lent.cfg.isReserved 23 = false ∧
      lent.boundNumber 0 = some 131 ∧
      lent.dir 23 = some (legacy .west) ∧
      (legacy .west).side = some .west ∧
      (legacy .west).quarantine = none ∧
      (lent.side .west).state = .joined ∧
      (lent.unit .west).queue.length < 32 ∧
      (List.replicate 64 1).length ≤ 64) ∧
    (calm (drained lent) = true ∧
      refuses (drained lent) (1) (.internal) (PoolCount.noFree) = true) ∧
    (calm (capped) = true ∧
      refuses (capped) (1) (.internal) (PoolCount.forwardCap) = true) ∧
    (calm (fullQuota .internal) = true ∧
      refuses (fullQuota .internal) (1) (.internal) (PoolCount.quota) = true) ∧
    (calm (quiet (drained (noticed payload97))) = true ∧
      Memory.wf (drained (noticed payload97)).memory = true ∧
      (drained (noticed payload97)).spool.outbox = [Notice.mk (Recipient.number 23) payload97] ∧
      payload97.length ≤ 97 ∧
      refuses (drained (noticed payload97)) (1) (.internal) (PoolCount.noFree) = true) ∧
    (calm (quiet (noticed payload97)) = true ∧
      Memory.wf (noticed payload97).memory = true ∧
      (noticed payload97).spool.outbox = [Notice.mk (Recipient.number 23) payload97] ∧
      grants (noticed payload97) (.internal) (0) = true ∧
      (noticed payload97).cfg.isReserved 23 = false ∧
      (noticed payload97).boundNumber 1 = some 132 ∧
      (noticed payload97).dir 23 = some (legacy .west) ∧
      ((noticed payload97).side .west).state = .joined ∧
      ((noticed payload97).unit .west).queue.length < 32) := by
  refine ⟨?_, ?_, ?_, ?_, ?_, ?_⟩ <;> decide +kernel

theorem witness_ReleaseReturnsBlocksInOrder :
    (twoBlocks.check.bad = [] ∧
      twoBlocks.pool.recovering = false ∧
      releasable (twoBlocks) (.side .west) ([0, 1]) = true) ∧
    ((drained twoBlocks).check.bad = [] ∧
      (drained twoBlocks).pool.recovering = false ∧
      releasable (drained twoBlocks) (.side .west) ([0, 1]) = true) := by
  refine ⟨?_, ?_⟩ <;> decide +kernel

theorem witness_BlockRequestTakesTheHead :
    (lastRoom.check.bad = [] ∧
      lastRoom.pool.recovering = false ∧
      grants (lastRoom) (.side .west) (0) = true) ∧
    (twoBlocks.check.bad = [] ∧
      twoBlocks.pool.recovering = false ∧
      grants (twoBlocks) (.side .west) (2) = true) ∧
    ((drained lent).pool.recovering = false ∧
      (drained lent).pool.free = 0) ∧
    (capped.pool.recovering = false ∧
      0 < capped.pool.free ∧
      capped.cfg.forwardCap < capped.pool.forwardingHeld + 1) ∧
    (overQuota.pool.recovering = false ∧
      0 < overQuota.pool.free ∧
      overQuota.pool.forwardingHeld + 1 ≤ overQuota.cfg.forwardCap ∧
      overQuota.cfg.portQuota < overQuota.heldCount (.side .west) + 1) ∧
    recovering.pool.recovering = true := by
  refine ⟨?_, ?_, ?_, ?_, ?_, ?_⟩ <;> decide +kernel

theorem witness_StoredBytesReadBack :
    Memory.wf [(3, 5), (7, 9)] = true ∧
    Memory.wf [] = true ∧
    (Memory.wf lent.memory = true ∧
      lent.check.bad = [] ∧
      120 + [1, 2, 3, 0, 5, 6, 7, 8].length ≤ 128) := by
  refine ⟨?_, ?_, ?_⟩ <;> decide +kernel

theorem witness_RetireTestAndScrubberTakeTheirTurns :
    (settled (testFree.arrive (at_ T)) = true ∧
      (testFree.arrive (at_ T)).pool.recovering = false ∧
      (testFree.arrive (at_ T)).check.bad = [] ∧
      (testFree.arrive (at_ T)).check.test = some (target, T - 640) ∧
      (testFree.arrive (at_ T)).check.waiting = [] ∧
      T - 640 + 64 * Config.us ≤ (testFree.arrive (at_ T)).now ∧
      ReadBack.sound = ReadBack.sound ∧
      (testFree.arrive (at_ T)).pool.records[target.block].cls = .free) ∧
    (settled (testHeld.arrive (at_ T)) = true ∧
      (testHeld.arrive (at_ T)).pool.recovering = false ∧
      (testHeld.arrive (at_ T)).check.bad = [] ∧
      (testHeld.arrive (at_ T)).check.test = some (target, T - 640) ∧
      (testHeld.arrive (at_ T)).check.waiting = [] ∧
      T - 640 + 64 * Config.us ≤ (testHeld.arrive (at_ T)).now ∧
      (testHeld.arrive (at_ T)).pool.records[target.block].cls ≠ .free) ∧
    (settled ((listing 63 testHeld).arrive (at_ T)) = true ∧
      ((listing 63 testHeld).arrive (at_ T)).pool.recovering = false ∧
      ((listing 63 testHeld).arrive (at_ T)).check.bad = [] ∧
      ((listing 63 testHeld).arrive (at_ T)).check.test = some (target, T - 640) ∧
      ((listing 63 testHeld).arrive (at_ T)).check.waiting = [] ∧
      T - 640 + 64 * Config.us ≤ ((listing 63 testHeld).arrive (at_ T)).now ∧
      ReadBack.corrected ≠ ReadBack.sound ∧
      ((listing 63 testHeld).arrive (at_ T)).pool.records[target.block].cls = .spool ∧
      ((listing 63 testHeld).arrive (at_ T)).pool.retired.length < 64) ∧
    (settled (testForwarding.arrive (at_ T)) = true ∧
      (testForwarding.arrive (at_ T)).pool.recovering = false ∧
      (testForwarding.arrive (at_ T)).check.bad = [] ∧
      (testForwarding.arrive (at_ T)).check.test = some (target, T - 640) ∧
      (testForwarding.arrive (at_ T)).check.waiting = [] ∧
      T - 640 + 64 * Config.us ≤ (testForwarding.arrive (at_ T)).now ∧
      (testForwarding.arrive (at_ T)).pool.records[target.block].cls = .forwarding ∧
      (testForwarding.arrive (at_ T)).pool.records[target.block].tag = some (BlockTag.ingress (.side .west)) ∧
      (testForwarding.arrive (at_ T)).pool.retired.length < 64) ∧
    (settled ((testing (TestTarget.mk 0 3) lent).arrive (at_ T)) = true ∧
      ((testing (TestTarget.mk 0 3) lent).arrive (at_ T)).pool.recovering = false ∧
      ((testing (TestTarget.mk 0 3) lent).arrive (at_ T)).check.bad = [] ∧
      ((testing (TestTarget.mk 0 3) lent).arrive (at_ T)).check.test = some (TestTarget.mk 0 3, T - 640) ∧
      ((testing (TestTarget.mk 0 3) lent).arrive (at_ T)).check.waiting = [] ∧
      T - 640 + 64 * Config.us ≤ ((testing (TestTarget.mk 0 3) lent).arrive (at_ T)).now ∧
      ReadBack.uncorrectable ≠ ReadBack.sound ∧
      ((testing (TestTarget.mk 0 3) lent).arrive (at_ T)).pool.records[(TestTarget.mk 0 3).block].cls = .free ∧
      ((testing (TestTarget.mk 0 3) lent).arrive (at_ T)).pool.head = some (TestTarget.mk 0 3).block ∧
      ((testing (TestTarget.mk 0 3) lent).arrive (at_ T)).pool.retired.length < 64) ∧
    (settled ((testing (TestTarget.mk 1 31) lent).arrive (at_ T)) = true ∧
      ((testing (TestTarget.mk 1 31) lent).arrive (at_ T)).pool.recovering = false ∧
      ((testing (TestTarget.mk 1 31) lent).arrive (at_ T)).check.bad = [] ∧
      ((testing (TestTarget.mk 1 31) lent).arrive (at_ T)).check.test = some (TestTarget.mk 1 31, T - 640) ∧
      ((testing (TestTarget.mk 1 31) lent).arrive (at_ T)).check.waiting = [] ∧
      T - 640 + 64 * Config.us ≤ ((testing (TestTarget.mk 1 31) lent).arrive (at_ T)).now ∧
      ((testing (TestTarget.mk 1 31) lent).arrive (at_ T)).pool.records[(TestTarget.mk 1 31).block].cls = .free ∧
      ((testing (TestTarget.mk 1 31) lent).arrive (at_ T)).pool.head = some 0 ∧
      0 ≠ (TestTarget.mk 1 31).block ∧
      ((testing (TestTarget.mk 1 31) lent).arrive (at_ T)).pool.records[0].next = some (TestTarget.mk 1 31).block ∧
      ((testing (TestTarget.mk 1 31) lent).arrive (at_ T)).pool.retired.length < 64) ∧
    (settled ((listing 64 testFree).arrive (at_ T)) = true ∧
      ((listing 64 testFree).arrive (at_ T)).pool.recovering = false ∧
      ((listing 64 testFree).arrive (at_ T)).check.bad = [] ∧
      ((listing 64 testFree).arrive (at_ T)).check.test = some (target, T - 640) ∧
      ((listing 64 testFree).arrive (at_ T)).check.waiting = [] ∧
      T - 640 + 64 * Config.us ≤ ((listing 64 testFree).arrive (at_ T)).now ∧
      ((listing 64 testFree).arrive (at_ T)).pool.records[target.block].cls = .free ∧
      64 ≤ ((listing 64 testFree).arrive (at_ T)).pool.retired.length) ∧
    (settled (testFull.arrive (at_ T)) = true ∧
      (testFull.arrive (at_ T)).pool.recovering = false ∧
      (testFull.arrive (at_ T)).check.bad = [] ∧
      (testFull.arrive (at_ T)).check.test = some (target, T - 640) ∧
      (testFull.arrive (at_ T)).check.waiting = [] ∧
      T - 640 + 64 * Config.us ≤ (testFull.arrive (at_ T)).now ∧
      (testFull.arrive (at_ T)).pool.records[target.block].cls ≠ .free ∧
      64 ≤ (testFull.arrive (at_ T)).pool.retired.length) ∧
    (settled ((scrubbing []).arrive (at_ T)) = true ∧
      ((scrubbing []).arrive (at_ T)).admin.device ≠ .loading ∧
      ((scrubbing []).arrive (at_ T)).check.scrubAt = some T ∧
      T ≤ ((scrubbing []).arrive (at_ T)).now ∧
      ((scrubbing []).arrive (at_ T)).check.bad = []) ∧
    (settled ((scrubbing [BadWord.mk lastWord Damage.single 4]).arrive (at_ T)) = true ∧
      ((scrubbing [BadWord.mk lastWord Damage.single 4]).arrive (at_ T)).admin.device ≠ .loading ∧
      ((scrubbing [BadWord.mk lastWord Damage.single 4]).arrive (at_ T)).check.scrubAt = some T ∧
      T ≤ ((scrubbing [BadWord.mk lastWord Damage.single 4]).arrive (at_ T)).now ∧
      ((scrubbing [BadWord.mk lastWord Damage.single 4]).arrive (at_ T)).check.bad = [BadWord.mk (scrubLoc ((scrubbing [BadWord.mk
        lastWord Damage.single 4]).arrive (at_ T)).check.scrubPos) Damage.single 4] ∧
      ((scrubbing [BadWord.mk lastWord Damage.single 4]).arrive (at_ T)).passedOver (scrubLoc ((scrubbing [BadWord.mk lastWord
        Damage.single 4]).arrive (at_ T)).check.scrubPos) = false) := by
  refine ⟨?_, ?_, ?_, ?_, ?_, ?_, ?_, ?_, ?_, ?_⟩ <;> decide +kernel

theorem witness_PoolRecoveryRebuildsTheRecords :
    (retired7.pool.recovering = false ∧
      (listing 63 twoBlocks).pool.recovering = false ∧
      (listing 64 twoBlocks).pool.recovering = false) ∧
    ((besetPool [7] none).pool.recovering = false ∧
      (∀ w ∈ (besetPool [7] none).check.bad, w.loc.store ≠ .jobRecords) ∧
      (besetPool [7] none).job 4 = some (printingJob 1) ∧
      (besetPool [7] none).job 1 = some windowless ∧
      (List.filter (fun k => match (besetPool [7] none).job k with | some j => j.atPrinter | none => false)
        (List.finRange 12)).length ≤ 1) ∧
    (resting (recovering.arrive (at_ T)) = true ∧
      (recovering.arrive (at_ T)).check.bad = [] ∧
      (recovering.arrive (at_ T)).pool.recovering = true ∧
      (recovering.arrive (at_ T)).receivers = []) ∧
    ((listing 63 recovering).check.bad = [] ∧
      (listing 63 recovering).pool.recovering = true ∧
      ¬0 ∈ (listing 63 recovering).pool.retired ∧
      (listing 63 recovering).pool.head = some 0 ∧
      (listing 63 recovering).pool.retired.length < 64) ∧
    ((listing 64 recovering).check.bad = [] ∧
      (listing 64 recovering).pool.recovering = true ∧
      ¬0 ∈ (listing 64 recovering).pool.retired ∧
      (listing 64 recovering).pool.head = some 0 ∧
      64 ≤ (listing 64 recovering).pool.retired.length) := by
  refine ⟨?_, ?_, ?_, ?_, ?_⟩ <;> decide +kernel

theorem witness_CarrierBeginsABurst :
    (((lent.arrive (at_ T)).unit .west).sending = Sending.silent ∧
      ((lent.arrive (at_ T)).unit .west).rx = none ∧
      ((lent.arrive (at_ T)).unit .west).otherCarrier = false ∧
      ((lent.arrive (at_ T)).unit .west).windowOpen (lent.arrive (at_ T)).now = false) ∧
    (((awaiting.arrive (at_ T)).unit .west).sending = Sending.silent ∧
      ((awaiting.arrive (at_ T)).unit .west).rx = none ∧
      ((awaiting.arrive (at_ T)).unit .west).otherCarrier = false ∧
      ((awaiting.arrive (at_ T)).unit .west).queue = [awaited] ∧
      awaited.phase = RecordPhase.awaiting (T - 639) false ∧
      (awaiting.arrive (at_ T)).now < T - 639 + 64 * Config.us) ∧
    (((heard.arrive (at_ T)).unit .west).rx ≠ none ∨ ((heard.arrive (at_ T)).unit .west).otherCarrier = true) ∧
    (((jamming.arrive (at_ T)).unit .west).rx = none ∧
      ((jamming.arrive (at_ T)).unit .west).otherCarrier = false ∧
      ((jamming.arrive (at_ T)).unit .west).sending ≠ Sending.silent) ∧
    (settled ((crowded jamming).arrive (at_ T)) = true ∧
      (((crowded jamming).arrive (at_ T)).unit .west).rx = none ∧
      (((crowded jamming).arrive (at_ T)).unit .west).otherCarrier = true) ∧
    (settled ((crowded lent).arrive (at_ T)) = true ∧
      (((crowded lent).arrive (at_ T)).unit .west).rx = none ∧
      (((crowded lent).arrive (at_ T)).unit .west).otherCarrier = true) := by
  refine ⟨?_, ?_, ?_, ?_, ?_, ?_⟩ <;> decide +kernel

theorem witness_StagedHeaderTakesTheFirstBlock :
    (calm (heard.arrive (at_ T)) = true ∧
      Memory.wf (heard.arrive (at_ T)).memory = true ∧
      ((heard.arrive (at_ T)).side .west).state ≠ .partitioned ∧
      ((heard.arrive (at_ T)).unit .west).rx = some (Reception.mk (T - 100) .full [] none false false none false false false) ∧
      (kindOf 3).isAnswer = true) ∧
    ((kindOf 1).isAnswer = false ∧
      (staged (TrunkHeader.mk 240 9 1 5 (word16 0 0)) (heard.arrive (at_ T))).keepsTrunk (TrunkHeader.mk 240 9 1 5 (word16 0 0)) ((staged
        (TrunkHeader.mk 240 9 1 5 (word16 0 0)) (heard.arrive (at_ T))).decodeTrunk .west (TrunkHeader.mk 240 9 1 5 (word16 0 0))).snd
        ((staged (TrunkHeader.mk 240 9 1 5 (word16 0 0)) (heard.arrive (at_ T))).isReceipt (TrunkHeader.mk 240 9 1 5 (word16 0 0))
        ((staged (TrunkHeader.mk 240 9 1 5 (word16 0 0)) (heard.arrive (at_ T))).decodeTrunk .west (TrunkHeader.mk 240 9 1 5 (word16 0
        0))).snd) = false) ∧
    ((staged (TrunkHeader.mk 17 9 1 5 (word16 0 0)) (heard.arrive (at_ T))).keepsTrunk (TrunkHeader.mk 17 9 1 5 (word16 0 0)) ((staged
        (TrunkHeader.mk 17 9 1 5 (word16 0 0)) (heard.arrive (at_ T))).decodeTrunk .west (TrunkHeader.mk 17 9 1 5 (word16 0 0))).snd
        ((staged (TrunkHeader.mk 17 9 1 5 (word16 0 0)) (heard.arrive (at_ T))).isReceipt (TrunkHeader.mk 17 9 1 5 (word16 0 0)) ((staged
        (TrunkHeader.mk 17 9 1 5 (word16 0 0)) (heard.arrive (at_ T))).decodeTrunk .west (TrunkHeader.mk 17 9 1 5 (word16 0 0))).snd) =
        true ∧
      grants (heard.arrive (at_ T)) (.side .west) (0) = true) ∧
    (calm (heardStar.arrive (at_ T)) = true ∧
      Memory.wf (heardStar.arrive (at_ T)).memory = true ∧
      (starHeadBytes nodeB).length = 16 ∧
      starHeaderOf (starHeadBytes nodeB) = some (starHead nodeB) ∧
      ((heardStar.arrive (at_ T)).port 0).rx = some (Reception.mk (T - 100) .full [] none false false none false false false) ∧
      keepsStar (starHead nodeB) ((starStaged (starHead nodeB) (heardStar.arrive (at_ T))).decodeStar 0 (starHead nodeB)).snd = false) ∧
    ((starHeadBytes 281474976710655).length = 16 ∧
      starHeaderOf (starHeadBytes 281474976710655) = some (starHead 281474976710655) ∧
      keepsStar (starHead 281474976710655) ((starStaged (starHead 281474976710655) (heardStar.arrive (at_ T))).decodeStar 0 (starHead
        281474976710655)).snd = true ∧
      grants (heardStar.arrive (at_ T)) (.star 0) (0) = true) := by
  refine ⟨?_, ?_, ?_, ?_, ?_⟩ <;> decide +kernel

theorem witness_DecodeIsTheFirstTestThatHolds :
    lent.check.bad = [] ∧
    (twoNodes.check.bad = [] ∧
      ((StarHeader.mk nodeA 0 1 1 3).src = 0 ∨ (StarHeader.mk nodeA 0 1 1 3).src = 281474976710655#48)) ∧
    ((towards 281474976710655).src ≠ 0 ∧
      (towards 281474976710655).src ≠ 281474976710655#48 ∧
      (towards 281474976710655).dest = 281474976710655#48) ∧
    ((towards nodeA).src ≠ 0 ∧
      (towards nodeA).src ≠ 281474976710655#48 ∧
      (towards nodeA).dest ≠ 281474976710655#48 ∧
      (∃ n, n ∈ (twoNodes.port 0).nodes ∧ n.ident = (towards nodeA).dest)) ∧
    ((towards nodeB).src ≠ 0 ∧
      (towards nodeB).src ≠ 281474976710655#48 ∧
      (towards nodeB).dest ≠ 281474976710655#48 ∧
      (∀ (n : Node), n ∈ (twoNodes.port 0).nodes → n.ident ≠ (towards nodeB).dest) ∧
      (∃ n, n ∈ (twoNodes.port 1).nodes ∧ n.ident = (towards nodeB).dest) ∧
      (∀ (i : PortId), i < 1 → ∀ (n : Node), n ∈ (twoNodes.port i).nodes → n.ident ≠ (towards nodeB).dest)) ∧
    ((towards 32387).src ≠ 0 ∧
      (towards 32387).src ≠ 281474976710655#48 ∧
      (towards 32387).dest ≠ 281474976710655#48 ∧
      (∀ (n : Node), n ∈ (twoNodes.port 0).nodes → n.ident ≠ (towards 32387).dest) ∧
      (∀ (j : PortId) (n : Node), n ∈ (twoNodes.port j).nodes → n.ident ≠ (towards 32387).dest) ∧
      BitVec.extractLsb' 8 40 (towards 32387).dest = twoNodes.cfg.trunkPrefix) ∧
    ((towards 275062460416).src ≠ 0 ∧
      (towards 275062460416).src ≠ 281474976710655#48 ∧
      (towards 275062460416).dest ≠ 281474976710655#48 ∧
      (∀ (n : Node), n ∈ (twoNodes.port 0).nodes → n.ident ≠ (towards 275062460416).dest) ∧
      (∀ (j : PortId) (n : Node), n ∈ (twoNodes.port j).nodes → n.ident ≠ (towards 275062460416).dest) ∧
      BitVec.extractLsb' 8 40 (towards 275062460416).dest ≠ twoNodes.cfg.trunkPrefix ∧
      twoNodes.cfg.baseId = some (towards 275062460416).dest) ∧
    ((towards 275062460417).src ≠ 0 ∧
      (towards 275062460417).src ≠ 281474976710655#48 ∧
      (towards 275062460417).dest ≠ 281474976710655#48 ∧
      (∀ (n : Node), n ∈ (twoNodes.port 0).nodes → n.ident ≠ (towards 275062460417).dest) ∧
      (∀ (j : PortId) (n : Node), n ∈ (twoNodes.port j).nodes → n.ident ≠ (towards 275062460417).dest) ∧
      BitVec.extractLsb' 8 40 (towards 275062460417).dest ≠ twoNodes.cfg.trunkPrefix ∧
      twoNodes.cfg.baseId ≠ some (towards 275062460417).dest ∧
      twoNodes.cfg.printEnable ≠ 0 ∧
      Option.map (fun x => x + 1) twoNodes.cfg.baseId = some (towards 275062460417).dest) ∧
    ((towards 275062460418).src ≠ 0 ∧
      (towards 275062460418).src ≠ 281474976710655#48 ∧
      (towards 275062460418).dest ≠ 281474976710655#48 ∧
      (∀ (n : Node), n ∈ (twoNodes.port 0).nodes → n.ident ≠ (towards 275062460418).dest) ∧
      (∀ (j : PortId) (n : Node), n ∈ (twoNodes.port j).nodes → n.ident ≠ (towards 275062460418).dest) ∧
      BitVec.extractLsb' 8 40 (towards 275062460418).dest ≠ twoNodes.cfg.trunkPrefix ∧
      twoNodes.cfg.baseId ≠ some (towards 275062460418).dest ∧
      (twoNodes.cfg.printEnable = 0 ∨ Option.map (fun x => x + 1) twoNodes.cfg.baseId ≠ some (towards 275062460418).dest)) ∧
    (allRecords lent (fun _ r => decide (r.ident ≠ some nodeA)) = true) ∧
    (foundOne.dir 200 = some (remoteA 5) ∧
      (remoteA 5).holder = .remote .west nodeA peerId ∧
      allRecords foundOne (fun n r => decide (r.ident ≠ some nodeA ∨ n = 200)) = true) ∧
    (foundOwn.dir 210 = some ownA ∧
      ownA.holder = .own (some 0) nodeA 3 ∧
      allRecords foundOwn (fun n r => decide (r.isOwn = false ∨ r.ident ≠ some nodeA ∨ n = 210)) = true) ∧
    (foundTie.dir 160 = some (remoteA 5) ∧
      allRecords foundTie (fun _ r => decide (r.isOwn = false ∨ r.ident ≠ some nodeA)) = true ∧
      allRecords foundTie (fun m r => decide (r.ident ≠ some nodeA ∨ m = 160 ∨ r.lastHeard < 5 ∨ (r.lastHeard = 5 ∧ 160 < m))) = true) := by
  refine ⟨?_, ?_, ?_, ?_, ?_, ?_, ?_, ?_, ?_, ?_, ?_, ?_, ?_⟩ <;> decide +kernel

theorem witness_FullBlockAsksForAnother :
    (calm ((heard.arrive (at_ T)).feed .west first128) = true ∧
      Memory.wf ((heard.arrive (at_ T)).feed .west first128).memory = true ∧
      (((heard.arrive (at_ T)).feed .west first128).unit .west).rx = some (rxOf (after heard .west first128) .west) ∧
      (rxOf (after heard .west first128) .west).mode = .full ∧
      (rxOf (after heard .west first128) .west).chain = some (Chain.mk 0 0 1) ∧
      (rxOf (after heard .west first128) .west).overrun = false ∧
      (rxOf (after heard .west first128) .west).bytes.length % 128 = 0 ∧
      128 ≤ (rxOf (after heard .west first128) .west).bytes.length ∧
      (rxOf (after heard .west first128) .west).bytes.length < 520 ∧
      grants ((heard.arrive (at_ T)).feed .west first128) (.side .west) (1) = true) ∧
    (calm ((staged0.arrive (at_ T)).feed .west (List.drop 6 first128)) = true ∧
      Memory.wf ((staged0.arrive (at_ T)).feed .west (List.drop 6 first128)).memory = true ∧
      (((staged0.arrive (at_ T)).feed .west (List.drop 6 first128)).unit .west).rx = some (rxOf (after staged0 .west (List.drop 6
        first128)) .west) ∧
      (rxOf (after staged0 .west (List.drop 6 first128)) .west).mode = .full ∧
      (rxOf (after staged0 .west (List.drop 6 first128)) .west).chain = some (Chain.mk 0 0 1) ∧
      (rxOf (after staged0 .west (List.drop 6 first128)) .west).overrun = false ∧
      (rxOf (after staged0 .west (List.drop 6 first128)) .west).bytes.length % 128 = 0 ∧
      128 ≤ (rxOf (after staged0 .west (List.drop 6 first128)) .west).bytes.length ∧
      (rxOf (after staged0 .west (List.drop 6 first128)) .west).bytes.length < 520 ∧
      refuses ((staged0.arrive (at_ T)).feed .west (List.drop 6 first128)) (1) (.side .west) (PoolCount.noFree) = true) ∧
    (calm ((heardStar.arrive (at_ T)).feedPort 0 starFirst128) = true ∧
      ((heardStar.arrive (at_ T)).port 0).rx ≠ none ∧
      Memory.wf ((heardStar.arrive (at_ T)).feedPort 0 starFirst128).memory = true ∧
      (((heardStar.arrive (at_ T)).feedPort 0 starFirst128).port 0).rx = some (starRxOf (starAfter heardStar 0 starFirst128) 0) ∧
      (starRxOf (starAfter heardStar 0 starFirst128) 0).mode = .full ∧
      (starRxOf (starAfter heardStar 0 starFirst128) 0).chain = some (Chain.mk 0 0 1) ∧
      (starRxOf (starAfter heardStar 0 starFirst128) 0).overrun = false ∧
      (starRxOf (starAfter heardStar 0 starFirst128) 0).bytes.length % 128 = 0 ∧
      128 ≤ (starRxOf (starAfter heardStar 0 starFirst128) 0).bytes.length ∧
      (starRxOf (starAfter heardStar 0 starFirst128) 0).bytes.length < 1520 ∧
      grants ((heardStar.arrive (at_ T)).feedPort 0 starFirst128) (.star 0) (1) = true) ∧
    (calm ((starStaged0.arrive (at_ T)).feedPort 0 (List.drop 16 starFirst128)) = true ∧
      ((starStaged0.arrive (at_ T)).port 0).rx ≠ none ∧
      Memory.wf ((starStaged0.arrive (at_ T)).feedPort 0 (List.drop 16 starFirst128)).memory = true ∧
      (((starStaged0.arrive (at_ T)).feedPort 0 (List.drop 16 starFirst128)).port 0).rx = some (starRxOf (starAfter starStaged0 0
        (List.drop 16 starFirst128)) 0) ∧
      (starRxOf (starAfter starStaged0 0 (List.drop 16 starFirst128)) 0).mode = .full ∧
      (starRxOf (starAfter starStaged0 0 (List.drop 16 starFirst128)) 0).chain = some (Chain.mk 0 0 1) ∧
      (starRxOf (starAfter starStaged0 0 (List.drop 16 starFirst128)) 0).overrun = false ∧
      (starRxOf (starAfter starStaged0 0 (List.drop 16 starFirst128)) 0).bytes.length % 128 = 0 ∧
      128 ≤ (starRxOf (starAfter starStaged0 0 (List.drop 16 starFirst128)) 0).bytes.length ∧
      (starRxOf (starAfter starStaged0 0 (List.drop 16 starFirst128)) 0).bytes.length < 1520 ∧
      refuses ((starStaged0.arrive (at_ T)).feedPort 0 (List.drop 16 starFirst128)) (1) (.star 0) (PoolCount.noFree) = true) := by
  refine ⟨?_, ?_, ?_, ?_⟩ <;> decide +kernel

theorem witness_OverlongBytesAndJabberEndTheStoring :
    (calm ((trunkLong.arrive (at_ T)).feed .west []) = true ∧
      (((trunkLong.arrive (at_ T)).feed .west []).unit .west).rx = some (rxOf trunkLong .west) ∧
      (rxOf trunkLong .west).mode ≠ .ignored ∧
      (rxOf trunkLong .west).bytes.length = 520) ∧
    (calm (starLong.arrive (at_ T)) = true ∧
      ((starLong.arrive (at_ T)).port 0).rx = some (starRxOf starLong 0) ∧
      (starRxOf starLong 0).mode ≠ .ignored ∧
      (starRxOf starLong 0).bytes.length = 1520) ∧
    (calm ((talking 25000 false).arrive (at_ T)) = true ∧
      (((talking 25000 false).arrive (at_ T)).unit .west).rx = some (rxOf (talking 25000 false) .west) ∧
      (rxOf (talking 25000 false) .west).mode ≠ .ignored ∧
      (rxOf (talking 25000 false) .west).jabber = false ∧
      (rxOf (talking 25000 false) .west).began + 2500 * Config.us ≤ ((talking 25000 false).arrive (at_ T)).now) ∧
    (calm ((talking 25000 true).arrive (at_ T)) = true ∧
      (((talking 25000 true).arrive (at_ T)).unit .west).rx = some (rxOf (talking 25000 true) .west) ∧
      (rxOf (talking 25000 true) .west).mode ≠ .ignored ∧
      (rxOf (talking 25000 true) .west).jabber = true) ∧
    (calm ((talking 24999 false).arrive (at_ T)) = true ∧
      (((talking 24999 false).arrive (at_ T)).unit .west).rx = some (rxOf (talking 24999 false) .west) ∧
      (rxOf (talking 24999 false) .west).mode ≠ .ignored ∧
      ((talking 24999 false).arrive (at_ T)).now < (rxOf (talking 24999 false) .west).began + 2500 * Config.us) := by
  refine ⟨?_, ?_, ?_, ?_, ?_⟩ <;> decide +kernel

theorem witness_BurstClassesAndFormedFramesAgree :
    runt.length < 16 ∧
    520 < over520.length ∧
    (16 ≤ wrongCheck.length ∧
      wrongCheck.length ≤ 520 ∧
      List.drop (wrongCheck.length - 2) wrongCheck ≠ checkBytes16 (trunkCheck (List.take (wrongCheck.length - 2) wrongCheck))) ∧
    (16 ≤ frame17.length ∧
      frame17.length ≤ 520 ∧
      List.drop (frame17.length - 2) frame17 = checkBytes16 (trunkCheck (List.take (frame17.length - 2) frame17)) ∧
      trunkHeaderOf frame17 = some frame17Header) ∧
    (16 ≤ wrongLength.length ∧
      wrongLength.length ≤ 520 ∧
      List.drop (wrongLength.length - 2) wrongLength = checkBytes16 (trunkCheck (List.take (wrongLength.length - 2) wrongLength)) ∧
      trunkHeaderOf wrongLength = some (TrunkHeader.mk 1 2 3 4 200)) ∧
    ((run255 512).length ≤ 512 ∧
      (TrunkHeader.mk 1 2 3 4 512).len = BitVec.ofNat 16 (run255 512).length) ∧
    (run255 518).length ≤ 518 ∧
    starRunt.length < 24 ∧
    1520 < (List.replicate 1521 1).length ∧
    (24 ≤ starWrong.length ∧
      starWrong.length ≤ 1520 ∧
      List.drop (starWrong.length - 4) starWrong ≠ checkBytes32 (starCheck (List.take (starWrong.length - 4) starWrong))) ∧
    (24 ≤ frameToB.length ∧
      frameToB.length ≤ 1520 ∧
      List.drop (frameToB.length - 4) frameToB = checkBytes32 (starCheck (List.take (frameToB.length - 4) frameToB)) ∧
      starHeaderOf frameToB = some (StarHeader.mk nodeB nodeA 1 7 10)) ∧
    (24 ≤ starWrongLength.length ∧
      starWrongLength.length ≤ 1520 ∧
      List.drop (starWrongLength.length - 4) starWrongLength = checkBytes32 (starCheck (List.take (starWrongLength.length - 4)
        starWrongLength)) ∧
      starHeaderOf starWrongLength = some (StarHeader.mk nodeB nodeA 1 7 200)) ∧
    ((run255 1500).length ≤ 1500 ∧
      (StarHeader.mk nodeB nodeA 1 7 1500).len = BitVec.ofNat 16 (run255 1500).length) ∧
    (run255 1516).length ≤ 1516 := by
  refine ⟨?_, ?_, ?_, ?_, ?_, ?_, ?_, ?_, ?_, ?_, ?_, ?_, ?_, ?_⟩ <;> decide +kernel

theorem witness_BadFramesAreCountedAndGivenUp :
    (sound ((heard.arrive (at_ T)).feed .west runt) = true ∧
      (((heard.arrive (at_ T)).feed .west runt).unit .west).rx = some (rxOf (after heard .west runt) .west) ∧
      (rxOf (after heard .west runt) .west).mode ≠ .ignored ∧
      (rxOf (after heard .west runt) .west).settles = false ∧
      (if (rxOf (after heard .west runt) .west).jabber = true then BurstClass.jabber else classifyTrunk (rxOf (after heard .west runt)
        .west).bytes) ≠ BurstClass.good) ∧
    (sound ((heard.arrive (at_ T)).feed .west wrongCheck) = true ∧
      (((heard.arrive (at_ T)).feed .west wrongCheck).unit .west).rx = some (rxOf (after heard .west wrongCheck) .west) ∧
      (rxOf (after heard .west wrongCheck) .west).mode ≠ .ignored ∧
      (rxOf (after heard .west wrongCheck) .west).settles = false ∧
      (if (rxOf (after heard .west wrongCheck) .west).jabber = true then BurstClass.jabber else classifyTrunk (rxOf (after heard .west
        wrongCheck) .west).bytes) ≠ BurstClass.good) ∧
    (sound ((trunkLong.arrive (at_ T)).feed .west [4]) = true ∧
      (((trunkLong.arrive (at_ T)).feed .west [4]).unit .west).rx = some (rxOf (after trunkLong .west [4]) .west) ∧
      (rxOf (after trunkLong .west [4]) .west).mode ≠ .ignored ∧
      (rxOf (after trunkLong .west [4]) .west).settles = false ∧
      (if (rxOf (after trunkLong .west [4]) .west).jabber = true then BurstClass.jabber else classifyTrunk (rxOf (after trunkLong .west
        [4]) .west).bytes) ≠ BurstClass.good) ∧
    (sound (((answering 0 2).arrive (at_ T)).feed .west runt) = true ∧
      ((((answering 0 2).arrive (at_ T)).feed .west runt).side .west).state ≠ .partitioning ∧
      ((((answering 0 2).arrive (at_ T)).feed .west runt).unit .west).rx = some (rxOf (after (answering 0 2) .west runt) .west) ∧
      (rxOf (after (answering 0 2) .west runt) .west).mode ≠ .ignored ∧
      (rxOf (after (answering 0 2) .west runt) .west).settles = true ∧
      (if (rxOf (after (answering 0 2) .west runt) .west).jabber = true then BurstClass.jabber else classifyTrunk (rxOf (after (answering
        0 2) .west runt) .west).bytes) ≠ BurstClass.good ∧
      ((((answering 0 2).arrive (at_ T)).feed .west runt).unit .west).queue = [asker 0 2] ∧
      (asker 0 2).phase = RecordPhase.awaiting (T - 300) true ∧
      (asker 0 2).ackMisses < 3) ∧
    (sound (((answering 0 3).arrive (at_ T)).feed .west wrongCheck) = true ∧
      ((((answering 0 3).arrive (at_ T)).feed .west wrongCheck).side .west).state ≠ .partitioning ∧
      ((((answering 0 3).arrive (at_ T)).feed .west wrongCheck).unit .west).rx = some (rxOf (after (answering 0 3) .west wrongCheck)
        .west) ∧
      (rxOf (after (answering 0 3) .west wrongCheck) .west).mode ≠ .ignored ∧
      (rxOf (after (answering 0 3) .west wrongCheck) .west).settles = true ∧
      (if (rxOf (after (answering 0 3) .west wrongCheck) .west).jabber = true then BurstClass.jabber else classifyTrunk (rxOf (after
        (answering 0 3) .west wrongCheck) .west).bytes) ≠ BurstClass.good ∧
      ((((answering 0 3).arrive (at_ T)).feed .west wrongCheck).unit .west).queue = [asker 0 3] ∧
      (asker 0 3).phase = RecordPhase.awaiting (T - 300) true ∧
      3 ≤ (asker 0 3).ackMisses) ∧
    (sound ((heardStar.arrive (at_ T)).feedPort 0 starRunt) = true ∧
      (((heardStar.arrive (at_ T)).feedPort 0 starRunt).port 0).rx = some (starRxOf (starAfter heardStar 0 starRunt) 0) ∧
      (starRxOf (starAfter heardStar 0 starRunt) 0).mode ≠ .ignored ∧
      (((heardStar.arrive (at_ T)).feedPort 0 starRunt).port 0).state = .up ∧
      classifyStar (starRxOf (starAfter heardStar 0 starRunt) 0).bytes ≠ BurstClass.good) ∧
    (sound ((isolated.arrive (at_ T)).feedPort 0 starRunt) = true ∧
      (((isolated.arrive (at_ T)).feedPort 0 starRunt).port 0).rx = some (starRxOf (starAfter isolated 0 starRunt) 0) ∧
      (starRxOf (starAfter isolated 0 starRunt) 0).mode ≠ .ignored ∧
      (((isolated.arrive (at_ T)).feedPort 0 starRunt).port 0).state = .isolated) := by
  refine ⟨?_, ?_, ?_, ?_, ?_, ?_, ?_⟩ <;> decide +kernel

theorem witness_BadFramesAreCountedAndGivenUp_flushed :
    let f := after (leaving (answering 0 0)) .west runt
    let r := rxOf f .west
    sound f = true ∧ (f.unit .west).rx = some r ∧ r.mode ≠ .ignored ∧ r.settles = true ∧ r.jabber = false ∧
      classifyTrunk r.bytes ≠ .good ∧ (f.unit .west).queue = [asker 0 0] ∧ (asker 0 0).phase = .awaiting (T - 300) true ∧
      (f.side .west).state = .partitioning := by
  decide +kernel

theorem witness_RelayedFrameIsPlacedAndAnswered :
    (calm ((relaying.arrive (at_ T)).feed .west frame17) = true ∧
      ((relaying.arrive (at_ T)).feed .west frame17).admin.device = .run ∧
      (((relaying.arrive (at_ T)).feed .west frame17).unit .west).rx = some (rxOf (after relaying .west frame17) .west) ∧
      (rxOf (after relaying .west frame17) .west).mode = .full ∧
      (rxOf (after relaying .west frame17) .west).jabber = false ∧
      (rxOf (after relaying .west frame17) .west).settles = false ∧
      (rxOf (after relaying .west frame17) .west).duplicate = false ∧
      classifyTrunk (rxOf (after relaying .west frame17) .west).bytes = BurstClass.good ∧
      trunkHeaderOf (rxOf (after relaying .west frame17) .west).bytes = some frame17Header ∧
      (rxOf (after relaying .west frame17) .west).decode = some (Decode.relay (otherSide .west) frame17Header.dest) ∧
      (rxOf (after relaying .west frame17) .west).chain = some (Chain.mk 0 0 1) ∧
      directed frame17Header.kind frame17Header.dest = true ∧
      (kindOf frame17Header.kind).isAnswer = false ∧
      (kindOf frame17Header.kind).isLending = false ∧
      (((relaying.arrive (at_ T)).feed .west frame17).side .west).state = .joined ∧
      (((relaying.arrive (at_ T)).feed .west frame17).side (otherSide .west)).state = .joined ∧
      (((relaying.arrive (at_ T)).feed .west frame17).unit (otherSide .west)).queue.length < 32 ∧
      (((relaying.arrive (at_ T)).feed .west frame17).transmissions.any fun t => t.src == frame17Header.src && t.seq == frame17Header.seq
        && t.kind == frame17Header.kind) = false ∧
      frame17Header.src ≠ 0 ∧
      frame17Header.src ≠ 255 ∧
      ((relaying.arrive (at_ T)).feed .west frame17).cfg.isReserved frame17Header.src = false ∧
      ((relaying.arrive (at_ T)).feed .west frame17).cfg.isLending frame17Header.src = false ∧
      ((relaying.arrive (at_ T)).feed .west frame17).dir frame17Header.src = some (legacy .west) ∧
      (legacy .west).side = some .west) ∧
    ((noChain Decode.filter).echo = false ∧
      (noChain Decode.filter).chain = none ∧
      lent.cfg.isReserved (noChain Decode.filter).header.src = false ∧
      (noChain Decode.filter).directed = true ∧
      (noChain Decode.filter).decode = Decode.filter) ∧
    ((noChain (Decode.relay .east 17)).echo = false ∧
      (noChain (Decode.relay .east 17)).chain = none ∧
      lent.cfg.isReserved (noChain (Decode.relay .east 17)).header.src = false ∧
      (noChain (Decode.relay .east 17)).directed = true ∧
      (noChain (Decode.relay .east 17)).decode = Decode.relay .east 17) ∧
    (lent.check.bad = [] ∧
      lent.pool.recovering = false ∧
      heardTwice.echo = false ∧
      lent.cfg.isReserved heardTwice.header.src = false ∧
      heardTwice.directed = true ∧
      heardTwice.decode = Decode.entry 1 none ∧
      heardTwice.duplicate = true ∧
      heardTwice.chain = none) ∧
    ((holding (T + 1)).check.bad = [] ∧
      (holding (T + 1)).pool.recovering = false ∧
      (noChain (Decode.entry 2 (some 0))).echo = false ∧
      (holding (T + 1)).cfg.isReserved (noChain (Decode.entry 2 (some 0))).header.src = false ∧
      (noChain (Decode.entry 2 (some 0))).directed = true ∧
      (noChain (Decode.entry 2 (some 0))).decode = Decode.entry 2 (some 0) ∧
      (noChain (Decode.entry 2 (some 0))).duplicate = false ∧
      (holding (T + 1)).isHeld 2 = true) ∧
    (carrying.check.bad = [] ∧
      carrying.pool.recovering = false ∧
      (ended 131 16 (Decode.entry 0 none)).echo = false ∧
      carrying.cfg.isReserved (ended 131 16 (Decode.entry 0 none)).header.src = false ∧
      (ended 131 16 (Decode.entry 0 none)).directed = true ∧
      (ended 131 16 (Decode.entry 0 none)).decode = Decode.entry 0 none ∧
      (ended 131 16 (Decode.entry 0 none)).duplicate = false ∧
      carrying.isHeld 0 = false ∧
      taking (clientKindOf 0) (kindOf (ended 131 16 (Decode.entry 0 none)).header.kind) = Taking.refused) ∧
    ((ended 131 21 (Decode.entry 0 none)).echo = false ∧
      carrying.cfg.isReserved (ended 131 21 (Decode.entry 0 none)).header.src = false ∧
      (ended 131 21 (Decode.entry 0 none)).directed = true ∧
      (ended 131 21 (Decode.entry 0 none)).decode = Decode.entry 0 none ∧
      (ended 131 21 (Decode.entry 0 none)).duplicate = false ∧
      taking (clientKindOf 0) (kindOf (ended 131 21 (Decode.entry 0 none)).header.kind) = Taking.discarded) ∧
    ((noChain (Decode.entry 3 (some 0))).echo = false ∧
      lent.cfg.isReserved (noChain (Decode.entry 3 (some 0))).header.src = false ∧
      (noChain (Decode.entry 3 (some 0))).directed = true ∧
      (noChain (Decode.entry 3 (some 0))).decode = Decode.entry 3 (some 0) ∧
      (noChain (Decode.entry 3 (some 0))).duplicate = false ∧
      lent.isHeld 3 = false ∧
      (taking (clientKindOf 3) (kindOf (noChain (Decode.entry 3 (some 0))).header.kind) = Taking.toBlock ∨ taking (clientKindOf 3) (kindOf
        (noChain (Decode.entry 3 (some 0))).header.kind) = Taking.delivered) ∧
      (noChain (Decode.entry 3 (some 0))).chain = none) ∧
    ((ended 131 72 (Decode.entry 0 none)).echo = false ∧
      carrying.cfg.isReserved (ended 131 72 (Decode.entry 0 none)).header.src = false ∧
      (ended 131 72 (Decode.entry 0 none)).directed = true ∧
      (ended 131 72 (Decode.entry 0 none)).decode = Decode.entry 0 none ∧
      (ended 131 72 (Decode.entry 0 none)).duplicate = false ∧
      taking (clientKindOf 0) (kindOf (ended 131 72 (Decode.entry 0 none)).header.kind) = Taking.toBlock ∧
      (ended 131 72 (Decode.entry 0 none)).chain = some inBlock0) ∧
    (crossing.check.bad = [] ∧
      crossing.pool.recovering = false ∧
      (ended 140 1 (Decode.entry 3 (some 0))).echo = false ∧
      crossing.cfg.isReserved (ended 140 1 (Decode.entry 3 (some 0))).header.src = false ∧
      (ended 140 1 (Decode.entry 3 (some 0))).directed = true ∧
      (ended 140 1 (Decode.entry 3 (some 0))).decode = Decode.entry 3 (some 0) ∧
      (ended 140 1 (Decode.entry 3 (some 0))).duplicate = false ∧
      crossing.isHeld 3 = false ∧
      taking (clientKindOf 3) (kindOf (ended 140 1 (Decode.entry 3 (some 0))).header.kind) = Taking.delivered ∧
      (ended 140 1 (Decode.entry 3 (some 0))).chain = some inBlock0 ∧
      some 0 = some 0 ∧
      crossing.dir (ended 140 1 (Decode.entry 3 (some 0))).header.dest = some (DirRecord.mk (.own (some 0) nodeA 3) 0 0 none none) ∧
      (DirRecord.mk (.own (some 0) nodeA 3) 0 0 none none).holder = .own (some 0) nodeA 3 ∧
      ((crossing.port 0).state = .up ∧ (crossing.port 0).queue.length < 16)) ∧
    ((cutOff crossing).check.bad = [] ∧
      (cutOff crossing).pool.recovering = false ∧
      (cutOff crossing).cfg.isReserved (ended 140 1 (Decode.entry 3 (some 0))).header.src = false ∧
      (cutOff crossing).isHeld 3 = false ∧
      (cutOff crossing).dir (ended 140 1 (Decode.entry 3 (some 0))).header.dest = some (DirRecord.mk (.own (some 0) nodeA 3) 0 0 none
        none) ∧
      ¬(((cutOff crossing).port 0).state = .up ∧ ((cutOff crossing).port 0).queue.length < 16)) ∧
    ((behind carrying).check.bad = [] ∧
      (behind carrying).pool.recovering = false ∧
      (ended 77 1 (Decode.flood 77)).echo = false ∧
      (behind carrying).cfg.isReserved (ended 77 1 (Decode.flood 77)).header.src = false ∧
      (ended 77 1 (Decode.flood 77)).chain = some inBlock0 ∧
      (ended 77 1 (Decode.flood 77)).decode = Decode.flood 77 ∧
      (∃ r, r ∈ ((behind carrying).unit (otherSide (ended 77 1 (Decode.flood 77)).side)).queue ∧ r.origin = .side (ended 77 1
        (Decode.flood 77)).side ∧ r.dest = (ended 77 1 (Decode.flood 77)).header.dest ∧ r.src = (ended 77 1 (Decode.flood 77)).header.src
        ∧ r.seq = (ended 77 1 (Decode.flood 77)).header.seq ∧ r.kind = (ended 77 1 (Decode.flood 77)).header.kind)) ∧
    (carrying.cfg.isReserved (ended 77 1 (Decode.flood 77)).header.src = false ∧
      ¬∃ r, r ∈ (carrying.unit (otherSide (ended 77 1 (Decode.flood 77)).side)).queue ∧
      r.origin = .side (ended 77 1 (Decode.flood 77)).side ∧
      r.dest = (ended 77 1 (Decode.flood 77)).header.dest ∧
      r.src = (ended 77 1 (Decode.flood 77)).header.src ∧ r.seq = (ended 77 1 (Decode.flood 77)).header.seq ∧ r.kind = (ended 77 1
        (Decode.flood 77)).header.kind ∧
      ((carrying.side (otherSide (ended 77 1 (Decode.flood 77)).side)).state = .joined ∧ (carrying.unit (otherSide (ended 77 1
        (Decode.flood 77)).side)).queue.length < 32)) ∧
    ((crammed .east carrying).check.bad = [] ∧
      (crammed .east carrying).pool.recovering = false ∧
      (crammed .east carrying).cfg.isReserved (ended 77 1 (Decode.flood 77)).header.src = false ∧
      ¬∃ r, r ∈ ((crammed .east carrying).unit (otherSide (ended 77 1 (Decode.flood 77)).side)).queue ∧
      r.origin = .side (ended 77 1 (Decode.flood 77)).side ∧
      r.dest = (ended 77 1 (Decode.flood 77)).header.dest ∧
      r.src = (ended 77 1 (Decode.flood 77)).header.src ∧ r.seq = (ended 77 1 (Decode.flood 77)).header.seq ∧ r.kind = (ended 77 1
        (Decode.flood 77)).header.kind ∧
      ¬(((crammed .east carrying).side (otherSide (ended 77 1 (Decode.flood 77)).side)).state = .joined ∧ ((crammed .east carrying).unit
        (otherSide (ended 77 1 (Decode.flood 77)).side)).queue.length < 32)) ∧
    ((castOnce 9 4 carrying).check.bad = [] ∧
      (castOnce 9 4 carrying).pool.recovering = false ∧
      (ended 255 1 Decode.broadcast).echo = false ∧
      (castOnce 9 4 carrying).cfg.isReserved (ended 255 1 Decode.broadcast).header.src = false ∧
      (ended 255 1 Decode.broadcast).chain = some inBlock0 ∧
      (ended 255 1 Decode.broadcast).decode = Decode.broadcast ∧
      ((kindOf (ended 255 1 Decode.broadcast).header.kind).isLending = false ∨ (castOnce 9 4 carrying).admin.device ≠ .run) ∧
      (∃ b, b ∈ (castOnce 9 4 carrying).engine.broadcasts ∧ b.src = (ended 255 1 Decode.broadcast).header.src ∧ b.seq = (ended 255 1
        Decode.broadcast).header.seq ∧ b.kind = (ended 255 1 Decode.broadcast).header.kind)) ∧
    (carrying.cfg.isReserved (ended 255 1 Decode.broadcast).header.src = false ∧
      ((kindOf (ended 255 1 Decode.broadcast).header.kind).isLending = false ∨ carrying.admin.device ≠ .run) ∧
      ¬∃ b, b ∈ carrying.engine.broadcasts ∧ b.src = (ended 255 1 Decode.broadcast).header.src ∧ b.seq = (ended 255 1
        Decode.broadcast).header.seq ∧ b.kind = (ended 255 1 Decode.broadcast).header.kind ∧
      kindOf (ended 255 1 Decode.broadcast).header.kind ≠ Kind.datagram ∧
      ((carrying.side (otherSide (ended 255 1 Decode.broadcast).side)).state = .joined ∧ (carrying.unit (otherSide (ended 255 1
        Decode.broadcast).side)).queue.length < 32)) ∧
    ((cut .loop carrying).check.bad = [] ∧
      (cut .loop carrying).pool.recovering = false ∧
      (cut .loop carrying).cfg.isReserved (ended 255 1 Decode.broadcast).header.src = false ∧
      ((kindOf (ended 255 1 Decode.broadcast).header.kind).isLending = false ∨ (cut .loop carrying).admin.device ≠ .run) ∧
      ¬∃ b, b ∈ (cut .loop carrying).engine.broadcasts ∧
      b.src = (ended 255 1 Decode.broadcast).header.src ∧ b.seq = (ended 255 1 Decode.broadcast).header.seq ∧ b.kind = (ended 255 1
        Decode.broadcast).header.kind ∧
      ((cut .loop carrying).side (otherSide (ended 255 1 Decode.broadcast).side)).state ≠ .joined) ∧
    ((crammed .east carrying).cfg.isReserved (ended 255 1 Decode.broadcast).header.src = false ∧
      ((kindOf (ended 255 1 Decode.broadcast).header.kind).isLending = false ∨ (crammed .east carrying).admin.device ≠ .run) ∧
      ¬∃ b, b ∈ (crammed .east carrying).engine.broadcasts ∧
      b.src = (ended 255 1 Decode.broadcast).header.src ∧ b.seq = (ended 255 1 Decode.broadcast).header.seq ∧ b.kind = (ended 255 1
        Decode.broadcast).header.kind ∧
      ((crammed .east carrying).side (otherSide (ended 255 1 Decode.broadcast).side)).state = .joined ∧
      32 ≤ ((crammed .east carrying).unit (otherSide (ended 255 1 Decode.broadcast).side)).queue.length) ∧
    ((upOnly 3 (cut .loop carrying)).check.bad = [] ∧
      (upOnly 3 (cut .loop carrying)).pool.recovering = false ∧
      (ended 255 2 Decode.broadcast).echo = false ∧
      (upOnly 3 (cut .loop carrying)).cfg.isReserved (ended 255 2 Decode.broadcast).header.src = false ∧
      (ended 255 2 Decode.broadcast).chain = some inBlock0 ∧
      (ended 255 2 Decode.broadcast).decode = Decode.broadcast ∧
      ((kindOf (ended 255 2 Decode.broadcast).header.kind).isLending = false ∨ (upOnly 3 (cut .loop carrying)).admin.device ≠ .run) ∧
      ¬∃ b, b ∈ (upOnly 3 (cut .loop carrying)).engine.broadcasts ∧
      b.src = (ended 255 2 Decode.broadcast).header.src ∧ b.seq = (ended 255 2 Decode.broadcast).header.seq ∧ b.kind = (ended 255 2
        Decode.broadcast).header.kind ∧
      kindOf (ended 255 2 Decode.broadcast).header.kind = Kind.datagram ∧
      ((upOnly 3 (cut .loop carrying)).side (otherSide (ended 255 2 Decode.broadcast).side)).state ≠ .joined ∧
      ((upOnly 3 (cut .loop carrying)).port 3).state = .up ∧
      (∀ (q : PortId), q ≠ 3 → ((upOnly 3 (cut .loop carrying)).port q).state ≠ .up) ∧
      ((upOnly 3 (cut .loop carrying)).port 3).queue.length < 16) ∧
    ((upOf [2] carrying).check.bad = [] ∧
      (upOf [2] carrying).pool.recovering = false ∧
      (ended 255 2 .broadcast).echo = false ∧
      (upOf [2] carrying).cfg.isReserved (ended 255 2 .broadcast).header.src = false ∧
      (ended 255 2 .broadcast).chain = some inBlock0 ∧
      (kindOf (ended 255 2 .broadcast).header.kind).isLending = false ∧
      (∀ b ∈ (upOf [2] carrying).engine.broadcasts, ¬(b.src = (ended 255 2 .broadcast).header.src ∧ b.seq = (ended 255 2
        .broadcast).header.seq ∧ b.kind = (ended 255 2 .broadcast).header.kind)) ∧
      kindOf (ended 255 2 .broadcast).header.kind = .datagram ∧
      ((upOf [2] carrying).side (otherSide (ended 255 2 .broadcast).side)).state = .joined ∧
      ((upOf [2] carrying).unit (otherSide (ended 255 2 .broadcast).side)).queue.length < 32 ∧
      ((upOf [2] carrying).port 2).state = .up ∧
      ((upOf [2] carrying).port 2).queue.length < 16 ∧
      (∀ q : PortId, q ≠ 2 → ((upOf [2] carrying).port q).state ≠ .up) ∧
      (upOf [2] carrying).pool.records[(0 : BlockNo)].next = none ∧
      Memory.wf (upOf [2] carrying).memory = true ∧
      grants (upOf [2] carrying) (.side (ended 255 2 .broadcast).side) (1) = true) ∧
    ((drained (upOf [2] carrying)).check.bad = [] ∧
      (drained (upOf [2] carrying)).pool.recovering = false ∧
      (ended 255 2 .broadcast).echo = false ∧
      (drained (upOf [2] carrying)).cfg.isReserved (ended 255 2 .broadcast).header.src = false ∧
      (ended 255 2 .broadcast).chain = some inBlock0 ∧
      (kindOf (ended 255 2 .broadcast).header.kind).isLending = false ∧
      (∀ b ∈ (drained (upOf [2] carrying)).engine.broadcasts, ¬(b.src = (ended 255 2 .broadcast).header.src ∧ b.seq = (ended 255 2
        .broadcast).header.seq ∧ b.kind = (ended 255 2 .broadcast).header.kind)) ∧
      kindOf (ended 255 2 .broadcast).header.kind = .datagram ∧
      ((drained (upOf [2] carrying)).side (otherSide (ended 255 2 .broadcast).side)).state = .joined ∧
      ((drained (upOf [2] carrying)).unit (otherSide (ended 255 2 .broadcast).side)).queue.length < 32 ∧
      ((drained (upOf [2] carrying)).port 2).state = .up ∧
      ((drained (upOf [2] carrying)).port 2).queue.length < 16 ∧
      (∀ q : PortId, q ≠ 2 → ((drained (upOf [2] carrying)).port q).state ≠ .up) ∧
      refuses (drained (upOf [2] carrying)) 1 (.side (ended 255 2 .broadcast).side) .noFree = true) ∧
    ((upOf [2, 5] (cut .admin carrying)).check.bad = [] ∧
      (upOf [2, 5] (cut .admin carrying)).pool.recovering = false ∧
      (ended 255 2 .broadcast).echo = false ∧
      (upOf [2, 5] (cut .admin carrying)).cfg.isReserved (ended 255 2 .broadcast).header.src = false ∧
      (ended 255 2 .broadcast).chain = some inBlock0 ∧
      (kindOf (ended 255 2 .broadcast).header.kind).isLending = false ∧
      (∀ b ∈ (upOf [2, 5] (cut .admin carrying)).engine.broadcasts, ¬(b.src = (ended 255 2 .broadcast).header.src ∧ b.seq = (ended 255 2
        .broadcast).header.seq ∧ b.kind = (ended 255 2 .broadcast).header.kind)) ∧
      kindOf (ended 255 2 .broadcast).header.kind = .datagram ∧
      ((upOf [2, 5] (cut .admin carrying)).side (otherSide (ended 255 2 .broadcast).side)).state ≠ .joined ∧
      ((upOf [2, 5] (cut .admin carrying)).port 2).state = .up ∧
      ((upOf [2, 5] (cut .admin carrying)).port 5).state = .up ∧
      ((upOf [2, 5] (cut .admin carrying)).port 2).queue.length < 16 ∧
      ((upOf [2, 5] (cut .admin carrying)).port 5).queue.length < 16 ∧
      (∀ o : PortId, o ≠ 2 → o ≠ 5 → ((upOf [2, 5] (cut .admin carrying)).port o).state ≠ .up) ∧
      (upOf [2, 5] (cut .admin carrying)).pool.records[(0 : BlockNo)].next = none ∧
      Memory.wf (upOf [2, 5] (cut .admin carrying)).memory = true ∧
      grants (upOf [2, 5] (cut .admin carrying)) (.side (ended 255 2 .broadcast).side) (1) = true) ∧
    ((drained (upOf [2, 5] (cut .admin carrying))).check.bad = [] ∧
      (drained (upOf [2, 5] (cut .admin carrying))).pool.recovering = false ∧
      (ended 255 2 .broadcast).echo = false ∧
      (drained (upOf [2, 5] (cut .admin carrying))).cfg.isReserved (ended 255 2 .broadcast).header.src = false ∧
      (ended 255 2 .broadcast).chain = some inBlock0 ∧
      (kindOf (ended 255 2 .broadcast).header.kind).isLending = false ∧
      (∀ b ∈ (drained (upOf [2, 5] (cut .admin carrying))).engine.broadcasts, ¬(b.src = (ended 255 2 .broadcast).header.src ∧ b.seq =
        (ended 255 2 .broadcast).header.seq ∧ b.kind = (ended 255 2 .broadcast).header.kind)) ∧
      kindOf (ended 255 2 .broadcast).header.kind = .datagram ∧
      ((drained (upOf [2, 5] (cut .admin carrying))).side (otherSide (ended 255 2 .broadcast).side)).state ≠ .joined ∧
      ((drained (upOf [2, 5] (cut .admin carrying))).port 2).state = .up ∧
      ((drained (upOf [2, 5] (cut .admin carrying))).port 5).state = .up ∧
      ((drained (upOf [2, 5] (cut .admin carrying))).port 2).queue.length < 16 ∧
      ((drained (upOf [2, 5] (cut .admin carrying))).port 5).queue.length < 16 ∧
      (∀ o : PortId, o ≠ 2 → o ≠ 5 → ((drained (upOf [2, 5] (cut .admin carrying))).port o).state ≠ .up) ∧
      refuses (drained (upOf [2, 5] (cut .admin carrying))) 1 (.side (ended 255 2 .broadcast).side) .noFree = true) := by
  refine ⟨?_, ?_, ?_, ?_, ?_, ?_, ?_, ?_, ?_, ?_, ?_, ?_, ?_, ?_, ?_, ?_, ?_, ?_, ?_, ?_, ?_, ?_, ?_⟩ <;> decide +kernel

theorem witness_AnswerSettlesTheHeadRecord :
    (sound (((answering 0 0).arrive (at_ T)).feed .west (reply 3 4 [])) = true ∧
      (((answering 0 0).arrive (at_ T)).feed .west (reply 3 4 [])).admin.device = .run ∧
      ((((answering 0 0).arrive (at_ T)).feed .west (reply 3 4 [])).side .west).state = .joined ∧
      ((((answering 0 0).arrive (at_ T)).feed .west (reply 3 4 [])).unit .west).rx = some (rxOf (after (answering 0 0) .west (reply 3 4
        [])) .west) ∧
      (rxOf (after (answering 0 0) .west (reply 3 4 [])) .west).mode = .full ∧
      (rxOf (after (answering 0 0) .west (reply 3 4 [])) .west).jabber = false ∧
      (rxOf (after (answering 0 0) .west (reply 3 4 [])) .west).settles = true ∧
      classifyTrunk (rxOf (after (answering 0 0) .west (reply 3 4 [])) .west).bytes = BurstClass.good ∧
      trunkHeaderOf (rxOf (after (answering 0 0) .west (reply 3 4 [])) .west).bytes = some (TrunkHeader.mk 17 9 3 4 0) ∧
      ((((answering 0 0).arrive (at_ T)).feed .west (reply 3 4 [])).unit .west).queue = [asker 0 0] ∧
      (asker 0 0).phase = RecordPhase.awaiting (T - 300) true ∧
      (TrunkHeader.mk 17 9 3 4 0).src ≠ 0 ∧
      (TrunkHeader.mk 17 9 3 4 0).src ≠ 255 ∧
      (((answering 0 0).arrive (at_ T)).feed .west (reply 3 4 [])).cfg.isReserved (TrunkHeader.mk 17 9 3 4 0).src = false ∧
      (((answering 0 0).arrive (at_ T)).feed .west (reply 3 4 [])).cfg.isLending (TrunkHeader.mk 17 9 3 4 0).src = false ∧
      (((answering 0 0).arrive (at_ T)).feed .west (reply 3 4 [])).dir (TrunkHeader.mk 17 9 3 4 0).src = some (legacy .west) ∧
      (legacy .west).side = some .west ∧
      (TrunkHeader.mk 17 9 3 4 0).kind = 3 ∧
      ((TrunkHeader.mk 17 9 3 4 0).dest = (asker 0 0).src ∧ (TrunkHeader.mk 17 9 3 4 0).src = (asker 0 0).dest ∧ (TrunkHeader.mk 17 9 3 4
        0).seq = (asker 0 0).seq)) ∧
    (sound (((answering 4 0).arrive (at_ T)).feed .west (reply 4 4 [1])) = true ∧
      (((answering 4 0).arrive (at_ T)).feed .west (reply 4 4 [1])).admin.device = .run ∧
      ((((answering 4 0).arrive (at_ T)).feed .west (reply 4 4 [1])).side .west).state = .joined ∧
      ((((answering 4 0).arrive (at_ T)).feed .west (reply 4 4 [1])).unit .west).rx = some (rxOf (after (answering 4 0) .west (reply 4 4
        [1])) .west) ∧
      (rxOf (after (answering 4 0) .west (reply 4 4 [1])) .west).mode = .full ∧
      (rxOf (after (answering 4 0) .west (reply 4 4 [1])) .west).jabber = false ∧
      (rxOf (after (answering 4 0) .west (reply 4 4 [1])) .west).settles = true ∧
      classifyTrunk (rxOf (after (answering 4 0) .west (reply 4 4 [1])) .west).bytes = BurstClass.good ∧
      trunkHeaderOf (rxOf (after (answering 4 0) .west (reply 4 4 [1])) .west).bytes = some (TrunkHeader.mk 17 9 4 4 1) ∧
      ((((answering 4 0).arrive (at_ T)).feed .west (reply 4 4 [1])).unit .west).queue = [asker 4 0] ∧
      (asker 4 0).phase = RecordPhase.awaiting (T - 300) true ∧
      (TrunkHeader.mk 17 9 4 4 1).src ≠ 0 ∧
      (TrunkHeader.mk 17 9 4 4 1).src ≠ 255 ∧
      (((answering 4 0).arrive (at_ T)).feed .west (reply 4 4 [1])).cfg.isReserved (TrunkHeader.mk 17 9 4 4 1).src = false ∧
      (((answering 4 0).arrive (at_ T)).feed .west (reply 4 4 [1])).cfg.isLending (TrunkHeader.mk 17 9 4 4 1).src = false ∧
      (((answering 4 0).arrive (at_ T)).feed .west (reply 4 4 [1])).dir (TrunkHeader.mk 17 9 4 4 1).src = some (legacy .west) ∧
      (TrunkHeader.mk 17 9 4 4 1).kind = 4 ∧
      ((TrunkHeader.mk 17 9 4 4 1).dest = (asker 4 0).src ∧ (TrunkHeader.mk 17 9 4 4 1).src = (asker 4 0).dest ∧ (TrunkHeader.mk 17 9 4 4
        1).seq = (asker 4 0).seq) ∧
      (TrunkHeader.mk 17 9 4 4 1).len = 1 ∧
      (rxOf (after (answering 4 0) .west (reply 4 4 [1])) .west).bytes.getD 6 0 = 1 ∧
      (asker 4 0).busyCount < 5) ∧
    (sound (((answering 5 0).arrive (at_ T)).feed .west (reply 4 4 [1])) = true ∧
      (((answering 5 0).arrive (at_ T)).feed .west (reply 4 4 [1])).admin.device = .run ∧
      ((((answering 5 0).arrive (at_ T)).feed .west (reply 4 4 [1])).side .west).state = .joined ∧
      ((((answering 5 0).arrive (at_ T)).feed .west (reply 4 4 [1])).unit .west).rx = some (rxOf (after (answering 5 0) .west (reply 4 4
        [1])) .west) ∧
      (rxOf (after (answering 5 0) .west (reply 4 4 [1])) .west).mode = .full ∧
      (rxOf (after (answering 5 0) .west (reply 4 4 [1])) .west).jabber = false ∧
      (rxOf (after (answering 5 0) .west (reply 4 4 [1])) .west).settles = true ∧
      classifyTrunk (rxOf (after (answering 5 0) .west (reply 4 4 [1])) .west).bytes = BurstClass.good ∧
      trunkHeaderOf (rxOf (after (answering 5 0) .west (reply 4 4 [1])) .west).bytes = some (TrunkHeader.mk 17 9 4 4 1) ∧
      ((((answering 5 0).arrive (at_ T)).feed .west (reply 4 4 [1])).unit .west).queue = [asker 5 0] ∧
      (asker 5 0).phase = RecordPhase.awaiting (T - 300) true ∧
      (((answering 5 0).arrive (at_ T)).feed .west (reply 4 4 [1])).cfg.isReserved (TrunkHeader.mk 17 9 4 4 1).src = false ∧
      (((answering 5 0).arrive (at_ T)).feed .west (reply 4 4 [1])).cfg.isLending (TrunkHeader.mk 17 9 4 4 1).src = false ∧
      (((answering 5 0).arrive (at_ T)).feed .west (reply 4 4 [1])).dir (TrunkHeader.mk 17 9 4 4 1).src = some (legacy .west) ∧
      ((TrunkHeader.mk 17 9 4 4 1).dest = (asker 5 0).src ∧ (TrunkHeader.mk 17 9 4 4 1).src = (asker 5 0).dest ∧ (TrunkHeader.mk 17 9 4 4
        1).seq = (asker 5 0).seq) ∧
      (rxOf (after (answering 5 0) .west (reply 4 4 [1])) .west).bytes.getD 6 0 = 1 ∧
      (asker 5 0).busyCount = 5) ∧
    (sound (((answering 5 0).arrive (at_ T)).feed .west (reply 4 4 [2])) = true ∧
      (((answering 5 0).arrive (at_ T)).feed .west (reply 4 4 [2])).admin.device = .run ∧
      ((((answering 5 0).arrive (at_ T)).feed .west (reply 4 4 [2])).side .west).state = .joined ∧
      ((((answering 5 0).arrive (at_ T)).feed .west (reply 4 4 [2])).unit .west).rx = some (rxOf (after (answering 5 0) .west (reply 4 4
        [2])) .west) ∧
      (rxOf (after (answering 5 0) .west (reply 4 4 [2])) .west).mode = .full ∧
      (rxOf (after (answering 5 0) .west (reply 4 4 [2])) .west).jabber = false ∧
      (rxOf (after (answering 5 0) .west (reply 4 4 [2])) .west).settles = true ∧
      classifyTrunk (rxOf (after (answering 5 0) .west (reply 4 4 [2])) .west).bytes = BurstClass.good ∧
      trunkHeaderOf (rxOf (after (answering 5 0) .west (reply 4 4 [2])) .west).bytes = some (TrunkHeader.mk 17 9 4 4 1) ∧
      ((((answering 5 0).arrive (at_ T)).feed .west (reply 4 4 [2])).unit .west).queue = [asker 5 0] ∧
      (((answering 5 0).arrive (at_ T)).feed .west (reply 4 4 [2])).cfg.isReserved (TrunkHeader.mk 17 9 4 4 1).src = false ∧
      (((answering 5 0).arrive (at_ T)).feed .west (reply 4 4 [2])).cfg.isLending (TrunkHeader.mk 17 9 4 4 1).src = false ∧
      (((answering 5 0).arrive (at_ T)).feed .west (reply 4 4 [2])).dir (TrunkHeader.mk 17 9 4 4 1).src = some (legacy .west) ∧
      ((TrunkHeader.mk 17 9 4 4 1).len ≠ 1 ∨ (rxOf (after (answering 5 0) .west (reply 4 4 [2])) .west).bytes.getD 6 0 ≠ 1)) ∧
    (sound (((answering 0 2).arrive (at_ T)).feed .west (reply 3 5 [])) = true ∧
      (((answering 0 2).arrive (at_ T)).feed .west (reply 3 5 [])).admin.device = .run ∧
      ((((answering 0 2).arrive (at_ T)).feed .west (reply 3 5 [])).side .west).state = .joined ∧
      ((((answering 0 2).arrive (at_ T)).feed .west (reply 3 5 [])).unit .west).rx = some (rxOf (after (answering 0 2) .west (reply 3 5
        [])) .west) ∧
      (rxOf (after (answering 0 2) .west (reply 3 5 [])) .west).mode = .full ∧
      (rxOf (after (answering 0 2) .west (reply 3 5 [])) .west).jabber = false ∧
      (rxOf (after (answering 0 2) .west (reply 3 5 [])) .west).settles = true ∧
      classifyTrunk (rxOf (after (answering 0 2) .west (reply 3 5 [])) .west).bytes = BurstClass.good ∧
      trunkHeaderOf (rxOf (after (answering 0 2) .west (reply 3 5 [])) .west).bytes = some (TrunkHeader.mk 17 9 3 5 0) ∧
      ((((answering 0 2).arrive (at_ T)).feed .west (reply 3 5 [])).unit .west).queue = [asker 0 2] ∧
      (asker 0 2).phase = RecordPhase.awaiting (T - 300) true ∧
      (TrunkHeader.mk 17 9 3 5 0).src ≠ 0 ∧
      (TrunkHeader.mk 17 9 3 5 0).src ≠ 255 ∧
      (((answering 0 2).arrive (at_ T)).feed .west (reply 3 5 [])).cfg.isReserved (TrunkHeader.mk 17 9 3 5 0).src = false ∧
      (((answering 0 2).arrive (at_ T)).feed .west (reply 3 5 [])).cfg.isLending (TrunkHeader.mk 17 9 3 5 0).src = false ∧
      (((answering 0 2).arrive (at_ T)).feed .west (reply 3 5 [])).dir (TrunkHeader.mk 17 9 3 5 0).src = some (legacy .west) ∧
      ((TrunkHeader.mk 17 9 3 5 0).kind = 3 ∨ (TrunkHeader.mk 17 9 3 5 0).kind = 4) ∧
      ¬((TrunkHeader.mk 17 9 3 5 0).dest = (asker 0 2).src ∧ (TrunkHeader.mk 17 9 3 5 0).src = (asker 0 2).dest ∧ (TrunkHeader.mk 17 9 3 5
        0).seq = (asker 0 2).seq) ∧
      (asker 0 2).ackMisses < 3) ∧
    (sound (((answering 0 3).arrive (at_ T)).feed .west (reply 3 5 [])) = true ∧
      (((answering 0 3).arrive (at_ T)).feed .west (reply 3 5 [])).admin.device = .run ∧
      ((((answering 0 3).arrive (at_ T)).feed .west (reply 3 5 [])).side .west).state = .joined ∧
      ((((answering 0 3).arrive (at_ T)).feed .west (reply 3 5 [])).unit .west).rx = some (rxOf (after (answering 0 3) .west (reply 3 5
        [])) .west) ∧
      (rxOf (after (answering 0 3) .west (reply 3 5 [])) .west).mode = .full ∧
      (rxOf (after (answering 0 3) .west (reply 3 5 [])) .west).jabber = false ∧
      (rxOf (after (answering 0 3) .west (reply 3 5 [])) .west).settles = true ∧
      classifyTrunk (rxOf (after (answering 0 3) .west (reply 3 5 [])) .west).bytes = BurstClass.good ∧
      trunkHeaderOf (rxOf (after (answering 0 3) .west (reply 3 5 [])) .west).bytes = some (TrunkHeader.mk 17 9 3 5 0) ∧
      ((((answering 0 3).arrive (at_ T)).feed .west (reply 3 5 [])).unit .west).queue = [asker 0 3] ∧
      (asker 0 3).phase = RecordPhase.awaiting (T - 300) true ∧
      (((answering 0 3).arrive (at_ T)).feed .west (reply 3 5 [])).cfg.isReserved (TrunkHeader.mk 17 9 3 5 0).src = false ∧
      (((answering 0 3).arrive (at_ T)).feed .west (reply 3 5 [])).cfg.isLending (TrunkHeader.mk 17 9 3 5 0).src = false ∧
      (((answering 0 3).arrive (at_ T)).feed .west (reply 3 5 [])).dir (TrunkHeader.mk 17 9 3 5 0).src = some (legacy .west) ∧
      ¬((TrunkHeader.mk 17 9 3 5 0).dest = (asker 0 3).src ∧ (TrunkHeader.mk 17 9 3 5 0).src = (asker 0 3).dest ∧ (TrunkHeader.mk 17 9 3 5
        0).seq = (asker 0 3).seq) ∧
      3 ≤ (asker 0 3).ackMisses) ∧
    ((answering 0 2).check.bad = [] ∧
      (answering 0 2).pool.recovering = false ∧
      ((answering 0 2).side .west).state ≠ .partitioning ∧
      ((answering 0 2).unit .west).queue = [asker 0 2] ∧
      (asker 0 2).ackMisses < 3 ∧
      (kindOf (TrunkHeader.mk 17 9 1 4 3).kind).isAnswer = false) ∧
    ((answering 0 3).check.bad = [] ∧
      (answering 0 3).pool.recovering = false ∧
      ((answering 0 3).side .west).state ≠ .partitioning ∧
      ((answering 0 3).unit .west).queue = [asker 0 3] ∧
      3 ≤ (asker 0 3).ackMisses) := by
  refine ⟨?_, ?_, ?_, ?_, ?_, ?_, ?_, ?_⟩ <;> decide +kernel

/-- A GOOD answer from station 9 in WEST's window, WEST PARTITIONING. -/
def answeredLeaving (bs : List Byte) (h : TrunkHeader) : Bool :=
  let f := after (leaving (answering 0 0)) .west bs
  let r := rxOf f .west
  sound f && decide (f.admin.device = .run) && decide ((f.unit .west).rx = some r) && decide (r.mode = .full) && !r.jabber && r.settles &&
  decide (classifyTrunk r.bytes = .good) && decide (trunkHeaderOf r.bytes = some h) && decide ((f.unit .west).queue = [asker 0 0]) &&
  decide (h.src ≠ 0) && decide (h.src ≠ 255) && !f.cfg.isReserved h.src && !f.cfg.isLending h.src &&
  decide (f.dir h.src = some (legacy .west)) && decide ((f.side .west).state = .partitioning)

theorem witness_AnswerSettlesTheHeadRecord_flushed :
    (asker 0 0).phase = .awaiting (T - 300) true ∧ (legacy .west).side = some .west ∧
    (asker 0 0).src = 17 ∧ (asker 0 0).dest = 9 ∧ (asker 0 0).seq = 4 ∧
    answeredLeaving (reply 3 4 []) ⟨17, 9, 3, 4, 0⟩ = true ∧ answeredLeaving (reply 4 4 [1]) ⟨17, 9, 4, 4, 1⟩ = true ∧
    answeredLeaving (reply 4 4 [2]) ⟨17, 9, 4, 4, 1⟩ = true ∧ answeredLeaving (reply 3 5 []) ⟨17, 9, 3, 5, 0⟩ = true ∧
    ((leaving (answering 0 0)).check.bad = [] ∧ (leaving (answering 0 0)).pool.recovering = false ∧
      ((leaving (answering 0 0)).unit .west).queue = [asker 0 0] ∧ (kindOf 1).isAnswer = false ∧
      ((leaving (answering 0 0)).side .west).state = .partitioning) := by
  refine ⟨?_, ?_, ?_, ?_, ?_, ?_, ?_, ?_, ?_, ?_⟩ <;> decide +kernel

theorem witness_AnswersGoOutAfterTheQuietGap :
    ((((idle 320 [] none).arrive (at_ T)).unit .west).sending = Sending.silent ∧
      (((idle 320 [] none).arrive (at_ T)).unit .west).rx = none ∧
      (((idle 320 [] none).arrive (at_ T)).unit .west).quiet = false ∧
      (((idle 320 [] none).arrive (at_ T)).unit .west).idleSince = some (T - 320) ∧
      T - 320 + 32 * Config.us ≤ ((idle 320 [] none).arrive (at_ T)).now ∧
      (((idle 320 [] none).arrive (at_ T)).unit .west).queue = [] ∧
      (((idle 320 [] none).arrive (at_ T)).unit .west).answer = none) ∧
    ((((idle 320 [] (some (Answer.mk 1 2 3 none))).arrive (at_ T)).unit .west).sending = Sending.silent ∧
      (((idle 320 [] (some (Answer.mk 1 2 3 none))).arrive (at_ T)).unit .west).rx = none ∧
      (((idle 320 [] (some (Answer.mk 1 2 3 none))).arrive (at_ T)).unit .west).quiet = false ∧
      (((idle 320 [] (some (Answer.mk 1 2 3 none))).arrive (at_ T)).unit .west).idleSince = some (T - 320) ∧
      T - 320 + 32 * Config.us ≤ ((idle 320 [] (some (Answer.mk 1 2 3 none))).arrive (at_ T)).now ∧
      (((idle 320 [] (some ⟨1, 2, 3, none⟩)).arrive (at_ T)).unit .west).queue = [] ∧
      (((idle 320 [] (some (Answer.mk 1 2 3 none))).arrive (at_ T)).unit .west).answer = some (Answer.mk 1 2 3 none)) ∧
    ((((idle 320 [backed 0] none).arrive (at_ T)).unit .west).sending = Sending.silent ∧
      (((idle 320 [backed 0] none).arrive (at_ T)).unit .west).rx = none ∧
      (((idle 320 [backed 0] none).arrive (at_ T)).unit .west).quiet = false ∧
      (((idle 320 [backed 0] none).arrive (at_ T)).unit .west).idleSince = some (T - 320) ∧
      T - 320 + 32 * Config.us ≤ ((idle 320 [backed 0] none).arrive (at_ T)).now ∧
      (((idle 320 [backed 0] none).arrive (at_ T)).unit .west).answer = none ∧
      (((idle 320 [backed 0] none).arrive (at_ T)).unit .west).queue = [backed 0] ∧
      (backed 0).phase = RecordPhase.backoffDue 0) ∧
    ((((idle 319 [] none).arrive (at_ T)).unit .west).sending = Sending.silent ∧
      (((idle 319 [] none).arrive (at_ T)).unit .west).rx = none ∧
      (((idle 319 [] none).arrive (at_ T)).unit .west).quiet = false ∧
      (((idle 319 [] none).arrive (at_ T)).unit .west).idleSince = some (T - 319) ∧
      ((idle 319 [] none).arrive (at_ T)).now < T - 319 + 32 * Config.us) ∧
    (((jamming.arrive (at_ T)).unit .west).sending ≠ Sending.silent ∨ ((jamming.arrive (at_ T)).unit .west).rx ≠ none ∨ ((jamming.arrive
      (at_ T)).unit .west).quiet = true ∨ ((jamming.arrive (at_ T)).unit .west).idleSince = none) ∧
    ((((sendingNow (Sending.answer true (T - 640))).arrive (at_ T)).unit .west).sending = Sending.answer true (T - 640) ∧
      T - 640 + 64 * Config.us ≤ ((sendingNow (Sending.answer true (T - 640))).arrive (at_ T)).now) ∧
    ((((sendingNow (Sending.answer false (T - 639))).arrive (at_ T)).unit .west).sending = Sending.answer false (T - 639) ∧
      ((sendingNow (Sending.answer false (T - 639))).arrive (at_ T)).now < T - 639 + 64 * Config.us) ∧
    (resting ((sendingNow (Sending.jam (T - 160))).arrive (at_ T)) = true ∧
      (((sendingNow (Sending.jam (T - 160))).arrive (at_ T)).unit .west).sending = Sending.jam (T - 160) ∧
      (((sendingNow (Sending.jam (T - 160))).arrive (at_ T)).unit .west).flushesAfterJam = false ∧
      T - 160 + 16 * Config.us ≤ ((sendingNow (Sending.jam (T - 160))).arrive (at_ T)).now) ∧
    (resting ((sendingNow (Sending.jam (T - 159))).arrive (at_ T)) = true ∧
      (((sendingNow (Sending.jam (T - 159))).arrive (at_ T)).unit .west).sending = Sending.jam (T - 159) ∧
      (((sendingNow (Sending.jam (T - 159))).arrive (at_ T)).unit .west).flushesAfterJam = false ∧
      ((sendingNow (Sending.jam (T - 159))).arrive (at_ T)).now < T - 159 + 16 * Config.us) := by
  refine ⟨?_, ?_, ?_, ?_, ?_, ?_, ?_, ?_, ?_⟩ <;> decide +kernel

theorem witness_AnswersGoOutAfterTheQuietGap_records :
    (let u := ((idle 320 [relayed] none).arrive (at_ T)).unit .west
     u.sending = .silent ∧ u.rx = none ∧ u.quiet = false ∧ u.idleSince = some (T - 320) ∧ u.answer = none ∧ u.queue = [relayed] ∧
      relayed.phase = .due) ∧
    (let u := ((idle 320 [backed 3, relayed] (some ⟨1, 2, 3, none⟩)).arrive (at_ T)).unit .west
     u.sending = .silent ∧ u.rx = none ∧ u.quiet = false ∧ u.idleSince = some (T - 320) ∧ u.answer = some ⟨1, 2, 3, none⟩ ∧
      u.queue = [backed 3, relayed] ∧ (backed 3).phase = .backoffDue 3) ∧
    T - 320 + 32 * Config.us ≤ T := by
  refine ⟨?_, ?_, ?_⟩ <;> decide +kernel

theorem witness_AttemptBeginsOnlyWhenTheLineIsFree :
    (calm ((queued relayed T).arrive (at_ T)) = true ∧
      (((queued relayed T).arrive (at_ T)).unit .west).queue = [relayed] ∧
      (((queued relayed T).arrive (at_ T)).admin.device ≠ .loading ∧ (((queued relayed T).arrive (at_ T)).side .west).state = .joined ∧
        (((queued relayed T).arrive (at_ T)).unit .west).sending = Sending.silent ∧ (((queued relayed T).arrive (at_ T)).unit .west).rx =
        none ∧ (((queued relayed T).arrive (at_ T)).unit .west).quiet = true ∧ (((queued relayed T).arrive (at_ T)).unit .west).answer =
        none ∧ (((queued relayed T).arrive (at_ T)).unit .west).reservedUntil ≤ ((queued relayed T).arrive (at_ T)).now ∧ (relayed.phase =
        RecordPhase.due ∨ relayed.phase = RecordPhase.missed ∧ (((queued relayed T).arrive (at_ T)).unit .west).ownWindowUntil ≤ ((queued
        relayed T).arrive (at_ T)).now))) ∧
    (calm ((queued relayed (T + 1)).arrive (at_ T)) = true ∧
      (((queued relayed (T + 1)).arrive (at_ T)).unit .west).queue = [relayed] ∧
      ¬(((queued relayed (T + 1)).arrive (at_ T)).admin.device ≠ .loading ∧ (((queued relayed (T + 1)).arrive (at_ T)).side .west).state =
        .joined ∧ (((queued relayed (T + 1)).arrive (at_ T)).unit .west).sending = Sending.silent ∧ (((queued relayed (T + 1)).arrive (at_
        T)).unit .west).rx = none ∧ (((queued relayed (T + 1)).arrive (at_ T)).unit .west).quiet = true ∧ (((queued relayed (T +
        1)).arrive (at_ T)).unit .west).answer = none ∧ (((queued relayed (T + 1)).arrive (at_ T)).unit .west).reservedUntil ≤ ((queued
        relayed (T + 1)).arrive (at_ T)).now ∧ (relayed.phase = RecordPhase.due ∨ relayed.phase = RecordPhase.missed ∧ (((queued relayed
        (T + 1)).arrive (at_ T)).unit .west).ownWindowUntil ≤ ((queued relayed (T + 1)).arrive (at_ T)).now))) := by
  refine ⟨?_, ?_⟩ <;> decide +kernel

theorem witness_AttemptSentWholeOpensItsWindowOrDelivers :
    (sound ((sent ours 640 0).arrive (at_ T)) = true ∧
      (((sent ours 640 0).arrive (at_ T)).unit .west).sending = Sending.attempt (T - 640) ∧
      (((sent ours 640 0).arrive (at_ T)).unit .west).queue = [ours] ∧
      T - 640 + 40 * (((sent ours 640 0).arrive (at_ T)).unit .west).lineOut.length ≤ ((sent ours 640 0).arrive (at_ T)).now ∧
      directed ours.kind ours.dest = true) ∧
    (sound ((sent oursTo255 640 0).arrive (at_ T)) = true ∧
      (((sent oursTo255 640 0).arrive (at_ T)).unit .west).sending = Sending.attempt (T - 640) ∧
      (((sent oursTo255 640 0).arrive (at_ T)).unit .west).queue = [oursTo255] ∧
      T - 640 + 40 * (((sent oursTo255 640 0).arrive (at_ T)).unit .west).lineOut.length ≤ ((sent oursTo255 640 0).arrive (at_ T)).now ∧
      directed oursTo255.kind oursTo255.dest = false ∧
      (((sent oursTo255 640 0).arrive (at_ T)).side .west).state ≠ .partitioning) := by
  refine ⟨?_, ?_⟩ <;> decide +kernel

theorem witness_AttemptSentWholeOpensItsWindowOrDelivers_partitioning :
    let a := (leaving (sent oursTo255 640 0)).arrive (at_ T)
    sound a = true ∧ (a.unit .west).sending = .attempt (T - 640) ∧ (a.unit .west).queue = [oursTo255] ∧
      T - 640 + 40 * (a.unit .west).lineOut.length ≤ a.now ∧ directed oursTo255.kind oursTo255.dest = false ∧
      (a.side .west).state = .partitioning := by
  decide +kernel

theorem witness_CollisionTurnsToTheJam :
    (sound ((sent (collided 10) 640 255).arrive (at_ T)) = true ∧
      (((sent (collided 10) 640 255).arrive (at_ T)).unit .west).sending = Sending.attempt (T - 640) ∧
      (((sent (collided 10) 640 255).arrive (at_ T)).unit .west).queue = [collided 10] ∧
      (((sent (collided 10) 640 255).arrive (at_ T)).side .west).state ≠ .partitioning ∧
      (collided 10).collisions + 1 < 12) ∧
    (sound ((sent (collided 11) 639 255).arrive (at_ T)) = true ∧
      (((sent (collided 11) 639 255).arrive (at_ T)).unit .west).sending = Sending.attempt (T - 639) ∧
      (((sent (collided 11) 639 255).arrive (at_ T)).unit .west).queue = [collided 11] ∧
      (((sent (collided 11) 639 255).arrive (at_ T)).side .west).state ≠ .partitioning ∧
      12 ≤ (collided 11).collisions + 1) ∧
    (sound ((sendingNow (Sending.answer true (T - 40))).arrive (at_ T)) = true ∧
      (((sendingNow (Sending.answer true (T - 40))).arrive (at_ T)).unit .west).sending = Sending.answer true (T - 40)) ∧
    (sound ((cutting .west lent).arrive (at_ T)) = true ∧
      (((cutting .west lent).arrive (at_ T)).unit .west).sending = Sending.cutCheck 20 (T + 40)) := by
  refine ⟨?_, ?_, ?_, ?_⟩ <;> decide +kernel

theorem witness_CollisionTurnsToTheJam_partitioning :
    (let a := (leaving (sent (collided 11) 640 255)).arrive (at_ T)
     sound a = true ∧ (a.unit .west).sending = .attempt (T - 640) ∧ (a.unit .west).queue = [collided 11] ∧
      (a.side .west).state = .partitioning) ∧
    (let a := (flushedBy 160).arrive (at_ T)
     sound a = true ∧ (a.unit .west).sending = .jam (T - 160) ∧
      (a.unit .west).queue = [{ collided 12 with phase := .flushAfterJam }] ∧ T - 160 + 16 * Config.us ≤ a.now) ∧
    (let a := (flushedBy 159).arrive (at_ T)
     sound a = true ∧ (a.unit .west).sending = .jam (T - 159) ∧ a.now < T - 159 + 16 * Config.us) ∧
    (let a := (cutJammed 160).arrive (at_ T)
     sound a = true ∧ (a.unit .west).sending = .cutJam (T - 160) ∧ (a.unit .west).flushesAfterJam = false ∧
      T - 160 + 16 * Config.us ≤ a.now) ∧
    (let a := (cutJammed 159).arrive (at_ T)
     sound a = true ∧ (a.unit .west).sending = .cutJam (T - 159) ∧ a.now < T - 159 + 16 * Config.us) := by
  refine ⟨?_, ?_, ?_, ?_, ?_⟩ <;> decide +kernel

theorem witness_BackoffWaitIsTheFormula :
    4 ≤ 4 ∧
    (lent.entry 0 = some junctionEntry ∧
      junctionEntry.phase = .bound 131) ∧
    allEntries relayOnly (fun i c => decide (i ≠ 0 ∨ c.phase.holds = none)) = true ∧
    (relayOnlyEmpty.admin.device = .relayOnly ∧
      (∀ (i : EntryNo), relayOnlyEmpty.entry i = none)) ∧
    (calm (sent (collided 10) 640 255) = true ∧
      ((sent (collided 10) 640 255).unit .west).queue = [collided 10] ∧
      (collided 10).collisions < 11) ∧
    (backed 0).phase = RecordPhase.backoffDue 0 := by
  refine ⟨?_, ?_, ?_, ?_, ?_, ?_⟩ <;> decide +kernel

theorem witness_WaitsAndAckWindowsEndAtTheirTime :
    ((((queued (backing T) 0).arrive (at_ T)).unit .west).queue = [backing T] ∧
      (backing T).phase = RecordPhase.backoff T) ∧
    ((((queued (busy (T + 1)) 0).arrive (at_ T)).unit .west).queue = [busy (T + 1)] ∧
      (busy (T + 1)).phase = RecordPhase.busy (T + 1)) ∧
    (sound ((queued (missing 2 640) 0).arrive (at_ T)) = true ∧
      (((queued (missing 2 640) 0).arrive (at_ T)).unit .west).queue = [missing 2 640] ∧
      (missing 2 640).phase = RecordPhase.awaiting (T - 640) false ∧
      T - 640 + 64 * Config.us ≤ ((queued (missing 2 640) 0).arrive (at_ T)).now ∧
      (((queued (missing 2 640) 0).arrive (at_ T)).side .west).state ≠ .partitioning ∧
      (missing 2 640).ackMisses < 3) ∧
    (sound ((queued (missing 3 640) 0).arrive (at_ T)) = true ∧
      (((queued (missing 3 640) 0).arrive (at_ T)).unit .west).queue = [missing 3 640] ∧
      (missing 3 640).phase = RecordPhase.awaiting (T - 640) false ∧
      T - 640 + 64 * Config.us ≤ ((queued (missing 3 640) 0).arrive (at_ T)).now ∧
      (((queued (missing 3 640) 0).arrive (at_ T)).side .west).state ≠ .partitioning ∧
      3 ≤ (missing 3 640).ackMisses) ∧
    (sound ((queued (missing 3 639) 0).arrive (at_ T)) = true ∧
      (((queued (missing 3 639) 0).arrive (at_ T)).unit .west).queue = [missing 3 639] ∧
      (missing 3 639).phase = RecordPhase.awaiting (T - 639) false ∧
      ((queued (missing 3 639) 0).arrive (at_ T)).now < T - 639 + 64 * Config.us) := by
  refine ⟨?_, ?_, ?_, ?_, ?_⟩ <;> decide +kernel

theorem witness_WaitsAndAckWindowsEndAtTheirTime_partitioning :
    let a := (leaving (queued (missing 0 640) 0)).arrive (at_ T)
    sound a = true ∧ (a.unit .west).queue = [missing 0 640] ∧ (missing 0 640).phase = .awaiting (T - 640) false ∧
      (a.side .west).state = .partitioning ∧ T - 640 + 64 * Config.us ≤ a.now := by
  decide +kernel

theorem witness_OutcomesKeepTheProxyBalance :
    ours.proxyAcked = false ∧
    (proxyRecord.proxyAcked = true ∧
      1 ≤ proxied.engine.proxy.queued) := by
  refine ⟨?_, ?_⟩ <;> decide +kernel

theorem witness_UncorrectableWordDamagesTheRecord :
    (resting ((struck (sent ours 640 0)).arrive (at_ T)) = true ∧
      ((struck (sent ours 640 0)).arrive (at_ T)).pool.recovering = false ∧
      ((struck (sent ours 640 0)).arrive (at_ T)).check.bad = [BadWord.mk (WordLoc.mk Store.blockMemory 0 2) (Damage.uncorrectable 5) 3] ∧
      ((struck (sent ours 640 0)).arrive (at_ T)).check.capture = none ∧
      (((struck (sent ours 640 0)).arrive (at_ T)).unit .west).sending = Sending.attempt (T - 640) ∧
      (((struck (sent ours 640 0)).arrive (at_ T)).unit .west).queue = [ours] ∧
      ((struck (sent ours 640 0)).arrive (at_ T)).metBroken ours 6 40 (T - 640) = some (BadWord.mk (WordLoc.mk Store.blockMemory 0 2)
        (Damage.uncorrectable 5) 3, TestTarget.mk 0 2, 8) ∧
      T - 640 + 40 * linePlace ours 6 8 ≤ ((struck (sent ours 640 0)).arrive (at_ T)).now) ∧
    (resting ((struck (starQueued starSending none (some (T - 184)))).arrive (at_ T)) = true ∧
      ((struck (starQueued starSending none (some (T - 184)))).arrive (at_ T)).pool.recovering = false ∧
      ((struck (starQueued starSending none (some (T - 184)))).arrive (at_ T)).check.bad = [BadWord.mk (WordLoc.mk Store.blockMemory 0 2)
        (Damage.uncorrectable 5) 3] ∧
      ((struck (starQueued starSending none (some (T - 184)))).arrive (at_ T)).check.capture = none ∧
      (((struck (starQueued starSending none (some (T - 184)))).arrive (at_ T)).port 0).sending = some (T - 184) ∧
      (((struck (starQueued starSending none (some (T - 184)))).arrive (at_ T)).port 0).queue = [starSending] ∧
      ((struck (starQueued starSending none (some (T - 184)))).arrive (at_ T)).metBroken starSending 16 8 (T - 184) = some (BadWord.mk
        (WordLoc.mk Store.blockMemory 0 2) (Damage.uncorrectable 5) 3, TestTarget.mk 0 2, 8) ∧
      T - 184 + 8 * linePlace starSending 16 8 ≤ ((struck (starQueued starSending none (some (T - 184)))).arrive (at_ T)).now) ∧
    ((hit Store.directory 132 lent).check.bad = [BadWord.mk (WordLoc.mk Store.directory 132 0) (Damage.uncorrectable 5) 3] ∧
      (hit Store.directory 132 lent).check.capture = none ∧
      (hit Store.directory 132 lent).entry 1 = some printerEntry ∧
      printerEntry.phase.holds = some 132 ∧
      (∀ (k : EntryNo) (d : AliasEntry), (hit Store.directory 132 lent).entry k = some d → d.phase.holds = some 132 → k = 1)) ∧
    ((hit Store.directory 23 lent).check.bad = [BadWord.mk (WordLoc.mk Store.directory (23) 0) (Damage.uncorrectable 5) 3] ∧
      (hit Store.directory 23 lent).check.capture = none ∧
      (∀ (i : EntryNo) (c : AliasEntry), (hit Store.directory 23 lent).entry i = some c → c.phase.holds ≠ some 23)) ∧
    ((hit Store.aliasTable 2 (ent 2 seeker run)).check.bad = [BadWord.mk (WordLoc.mk Store.aliasTable (↑2) 0) (Damage.uncorrectable 5) 3] ∧
      (hit Store.aliasTable 2 (ent 2 seeker run)).check.capture = none ∧
      (hit Store.aliasTable 2 (ent 2 seeker run)).admin.device = .run ∧
      ownedOnlyBy 0 2 (hit .aliasTable 2 (ent 2 seeker run)) = true ∧
      2 ≤ ↑2) ∧
    ((hit Store.aliasTable 0 (unclaimed run)).check.bad = [BadWord.mk (WordLoc.mk Store.aliasTable (↑0) 0) (Damage.uncorrectable 5) 3] ∧
      (hit Store.aliasTable 0 (unclaimed run)).check.capture = none ∧
      (hit Store.aliasTable 0 (unclaimed run)).admin.device = .run ∧
      ownedOnlyBy 0 0 (hit .aliasTable 0 (unclaimed run)) = true ∧
      0 = 0 ∧
      ¬0 ∈ (hit Store.aliasTable 0 (unclaimed run)).lend.claims) ∧
    ((hit Store.aliasTable 0 (unclaimed lent)).check.bad = [BadWord.mk (WordLoc.mk Store.aliasTable (↑0) 0) (Damage.uncorrectable 5) 3] ∧
      (hit Store.aliasTable 0 (unclaimed lent)).check.capture = none ∧
      (hit Store.aliasTable 0 (unclaimed lent)).admin.device = .run ∧
      1 ≤ 131 ∧
      131 ≤ 254 ∧
      (hit Store.aliasTable 0 (unclaimed lent)).dir 131 = some ownRecord ∧
      ownRecord.holder = .own none 275062460416 0 ∧
      ownedOnlyBy 131 0 (hit .aliasTable 0 (unclaimed lent)) = true) ∧
    ((hit Store.aliasTable 0 relayOnlyEmpty).check.bad = [BadWord.mk (WordLoc.mk Store.aliasTable (↑0) 0) (Damage.uncorrectable 5) 3] ∧
      (hit Store.aliasTable 0 relayOnlyEmpty).check.capture = none ∧
      (hit Store.aliasTable 0 relayOnlyEmpty).admin.device ≠ .run) ∧
    ((hit Store.roster 4 (rostered (peer none none) T)).check.bad = [BadWord.mk (WordLoc.mk Store.roster (↑4) 0) (Damage.uncorrectable 5)
        3] ∧
      (hit Store.roster 4 (rostered (peer none none) T)).check.capture = none ∧
      (hit Store.roster 4 (rostered (peer none none) T)).admin.device = .run ∧
      (hit Store.roster 4 (rostered (peer none none) T)).peer 4 = some (peer none none)) ∧
    ((hit Store.jobRecords 4 (slot 4 job0 ready)).check.bad = [BadWord.mk (WordLoc.mk Store.jobRecords (↑4) 0) (Damage.uncorrectable 5)
        3] ∧
      (hit Store.jobRecords 4 (slot 4 job0 ready)).check.capture = none ∧
      (hit Store.jobRecords 4 (slot 4 job0 ready)).admin.device = .run ∧
      (hit Store.jobRecords 4 (slot 4 job0 ready)).pool.recovering = false ∧
      (hit Store.jobRecords 4 (slot 4 job0 ready)).job 4 = some job0 ∧
      job0.atPrinter = false ∧
      List.filter (fun x => x != 4) (hit Store.jobRecords 4 (slot 4 job0 ready)).receivers = [] ∧
      (∀ (b : BlockNo), (hit Store.jobRecords 4 (slot 4 job0 ready)).pool.records[b].tag ≠ some (BlockTag.slot 4))) ∧
    (settled ((struckData 1 (ordered (printingJob 0))).arrive (at_ T)) = true ∧
      ((struckData 1 (ordered (printingJob 0))).arrive (at_ T)).pool.recovering = false ∧
      ((struckData 1 (ordered (printingJob 0))).arrive (at_ T)).check.bad = [BadWord.mk (WordLoc.mk Store.blockMemory 0 1)
        (Damage.uncorrectable 5) 3] ∧
      ((struckData 1 (ordered (printingJob 0))).arrive (at_ T)).check.capture = none ∧
      ((struckData 1 (ordered (printingJob 0))).arrive (at_ T)).admin.device = .run ∧
      ((struckData 1 (ordered (printingJob 0))).arrive (at_ T)).spool.order = [4] ∧
      ((struckData 1 (ordered (printingJob 0))).arrive (at_ T)).job 4 = some (printingJob 0) ∧
      (printingJob 0).state = .printing ∧
      (printingJob 0).chain = some chain0 ∧
      ((struckData 1 (ordered (printingJob 0))).arrive (at_ T)).receivers = [] ∧
      ((struckData 1 (ordered (printingJob 0))).arrive (at_ T)).spool.inHand = none ∧
      ((struckData 1 (ordered (printingJob 0))).arrive (at_ T)).spool.printer = .ready ∧
      ((struckData 1 (ordered (printingJob 0))).arrive (at_ T)).spool.initPending = false ∧
      ((struckData 1 (ordered (printingJob 0))).arrive (at_ T)).spool.initPulse = none ∧
      ((struckData 1 (ordered (printingJob 0))).arrive (at_ T)).spool.separatorDue = false ∧
      ((struckData 1 (ordered (printingJob 0))).arrive (at_ T)).locate (((struckData 1 (ordered (printingJob 0))).arrive (at_
        T)).jobFrames (printingJob 0)) (printingJob 0).printed = some ([0], .trunk, 9) ∧
      (0 : BlockNo) ∈ [(0 : BlockNo)] ∧
      1 < 32 ∧
      (chainWords [0] (headerBytes .trunk - 2) (headerBytes .trunk) ⟨.blockMemory, 0, 1⟩ = true ∨ chainWords [0] 9 (9 + 1) ⟨.blockMemory,
        0, 1⟩ = true)) ∧
    (settled ((struckData 2 (ordered (printingJob 0))).arrive (at_ T)) = true ∧
      ((struckData 2 (ordered (printingJob 0))).arrive (at_ T)).pool.recovering = false ∧
      ((struckData 2 (ordered (printingJob 0))).arrive (at_ T)).check.bad = [BadWord.mk (WordLoc.mk Store.blockMemory 0 2)
        (Damage.uncorrectable 5) 3] ∧
      ((struckData 2 (ordered (printingJob 0))).arrive (at_ T)).check.capture = none ∧
      ((struckData 2 (ordered (printingJob 0))).arrive (at_ T)).admin.device = .run ∧
      ((struckData 2 (ordered (printingJob 0))).arrive (at_ T)).spool.order = [4] ∧
      ((struckData 2 (ordered (printingJob 0))).arrive (at_ T)).job 4 = some (printingJob 0) ∧
      (printingJob 0).state = .printing ∧
      (printingJob 0).chain = some chain0 ∧
      ((struckData 2 (ordered (printingJob 0))).arrive (at_ T)).receivers = [] ∧
      ((struckData 2 (ordered (printingJob 0))).arrive (at_ T)).spool.inHand = none ∧
      ((struckData 2 (ordered (printingJob 0))).arrive (at_ T)).spool.printer = .ready ∧
      ((struckData 2 (ordered (printingJob 0))).arrive (at_ T)).spool.initPending = false ∧
      ((struckData 2 (ordered (printingJob 0))).arrive (at_ T)).spool.initPulse = none ∧
      ((struckData 2 (ordered (printingJob 0))).arrive (at_ T)).spool.separatorDue = false ∧
      ((struckData 2 (ordered (printingJob 0))).arrive (at_ T)).locate (((struckData 2 (ordered (printingJob 0))).arrive (at_
        T)).jobFrames (printingJob 0)) (printingJob 0).printed = some ([0], .trunk, 9) ∧
      (0 : BlockNo) ∈ [(0 : BlockNo)] ∧
      2 < 32 ∧
      (chainWords [0] (headerBytes .trunk - 2) (headerBytes .trunk) ⟨.blockMemory, 0, 2⟩ = true ∨ chainWords [0] 9 (9 + 1) ⟨.blockMemory,
        0, 2⟩ = true)) := by
  refine ⟨?_, ?_, ?_, ?_, ?_, ?_, ?_, ?_, ?_, ?_, ?_, ?_⟩ <;> decide +kernel

theorem witness_UncorrectableWordDamagesTheRecord_partitioning :
    let a := (leaving (struck (sent ours 640 0))).arrive (at_ T)
    resting a = true ∧ (a.side .west).state = .partitioning ∧ a.pool.recovering = false ∧ a.check.bad = [badWord] ∧
      a.check.capture = none ∧ (a.unit .west).sending = .attempt (T - 640) ∧ (a.unit .west).queue = [ours] ∧
      a.metBroken ours 6 40 (T - 640) = some (badWord, ⟨0, 2⟩, 8) ∧ T - 640 + 40 * linePlace ours 6 8 ≤ a.now := by
  decide +kernel

theorem witness_LinkPresenceMovesThePort :
    (sound (down.arrive (at_ T)) = true ∧
      (down.arrive (at_ T)).admin.device ≠ .loading ∧
      ((down.arrive (at_ T)).port 0).state = .down) ∧
    (sound (lent.arrive (at_ T)) = true ∧
      ((lent.arrive (at_ T)).admin.device = .loading ∨ ((lent.arrive (at_ T)).port 0).state ≠ .down)) ∧
    (sound (upPort.arrive (at_ T)) = true ∧
      ((upPort.arrive (at_ T)).port 0).state = .up) ∧
    (sound (fullPort.arrive (at_ T)) = true ∧
      ((fullPort.arrive (at_ T)).port 0).state = .up ∧
      ((fullPort.arrive (at_ T)).port 0).queue.length = 2 ∧
      (((fullPort.arrive (at_ T)).port 0).rx.bind (·.chain)) = some ⟨1, 1, 1⟩) ∧
    (sound (isolated.arrive (at_ T)) = true ∧
      ((isolated.arrive (at_ T)).port 0).state = .isolated) ∧
    (((down.arrive (at_ T)).port 0).state = .down ∨ ((down.arrive (at_ T)).port 0).state = .disabled) := by
  refine ⟨?_, ?_, ?_, ?_, ?_, ?_⟩ <;> decide +kernel

theorem witness_SwitchedStarFrameJoinsTheOtherQueue :
    (sound ((switching.arrive (at_ T)).feedPort 0 frameToB) = true ∧
      (((switching.arrive (at_ T)).feedPort 0 frameToB).port 0).rx = some (starRxOf (starAfter switching 0 frameToB) 0) ∧
      (starRxOf (starAfter switching 0 frameToB) 0).mode = .full ∧
      (starRxOf (starAfter switching 0 frameToB) 0).overrun = false ∧
      classifyStar (starRxOf (starAfter switching 0 frameToB) 0).bytes = BurstClass.good ∧
      starHeaderOf (starRxOf (starAfter switching 0 frameToB) 0).bytes = some (StarHeader.mk nodeB nodeA 1 7 10) ∧
      (starRxOf (starAfter switching 0 frameToB) 0).decode = some (Decode.switchTo 1) ∧
      (starRxOf (starAfter switching 0 frameToB) 0).chain = some (Chain.mk 0 0 1) ∧
      (((switching.arrive (at_ T)).feedPort 0 frameToB).port 0).state = .up ∧
      (((switching.arrive (at_ T)).feedPort 0 frameToB).port 1).state = .up ∧
      (((switching.arrive (at_ T)).feedPort 0 frameToB).port 1).queue.length < 16 ∧
      (StarHeader.mk nodeB nodeA 1 7 10).dest ≠ 281474976710655#48 ∧
      malformedSource (StarHeader.mk nodeB nodeA 1 7 10).src = false ∧
      trunkFormNumber ((switching.arrive (at_ T)).feedPort 0 frameToB).cfg.trunkPrefix (StarHeader.mk nodeB nodeA 1 7 10).src = none ∧
      ((switching.arrive (at_ T)).feedPort 0 frameToB).cfg.baseId ≠ some (StarHeader.mk nodeB nodeA 1 7 10).src ∧
      ((switching.arrive (at_ T)).feedPort 0 frameToB).cfg.printerId ≠ some (StarHeader.mk nodeB nodeA 1 7 10).src ∧
      (∃ n, n ∈ (((switching.arrive (at_ T)).feedPort 0 frameToB).port 0).nodes ∧ n.ident = (StarHeader.mk nodeB nodeA 1 7 10).src) ∧
      (kindOf (StarHeader.mk nodeB nodeA 1 7 10).kind).isAnswer = false ∧
      (kindOf (StarHeader.mk nodeB nodeA 1 7 10).kind).isLending = false) ∧
    (crossing.check.bad = [] ∧
      crossing.pool.recovering = false ∧
      (ended1 3 0 (Decode.relay .west 9)).chain = some inBlock0 ∧
      ((kindOf (ended1 3 0 (Decode.relay .west 9)).header.kind).isAnswer = true ∨ (kindOf (ended1 3 0 (Decode.relay .west
        9)).header.kind).isLending = true) ∧
      (ended1 3 0 (Decode.relay .west 9)).decode ≠ Decode.malformed) ∧
    ((ended1 1 512 (Decode.relay .west 9)).chain = some inBlock0 ∧
      (kindOf (ended1 1 512 (Decode.relay .west 9)).header.kind).isAnswer = false ∧
      (kindOf (ended1 1 512 (Decode.relay .west 9)).header.kind).isLending = false ∧
      (ended1 1 512 (Decode.relay .west 9)).decode = Decode.relay .west 9 ∧
      (∃ i, crossing.nodeEntry (ended1 1 512 (Decode.relay .west 9)) = some i ∧ crossing.boundNumber i = some 140) ∧
      kindOf (ended1 1 512 (Decode.relay .west 9)).header.kind ≠ Kind.unknown ∧
      (ended1 1 512 (Decode.relay .west 9)).header.len.toNat ≤ 512 ∧
      (crossing.side .west).state = .joined ∧
      (crossing.unit .west).queue.length < 32) ∧
    ((crammed .west crossing).check.bad = [] ∧
      (crammed .west crossing).pool.recovering = false ∧
      (∃ i, (crammed .west crossing).nodeEntry (ended1 1 512 (Decode.relay .west 9)) = some i ∧ (crammed .west crossing).boundNumber i =
        some 140) ∧
      (((crammed .west crossing).side .west).state ≠ .joined ∨ 32 ≤ ((crammed .west crossing).unit .west).queue.length)) ∧
    ((ended1 5 3 (Decode.relay .west 9)).chain = some inBlock0 ∧
      (kindOf (ended1 5 3 (Decode.relay .west 9)).header.kind).isAnswer = false ∧
      (kindOf (ended1 5 3 (Decode.relay .west 9)).header.kind).isLending = false ∧
      (ended1 5 3 (Decode.relay .west 9)).decode = Decode.relay .west 9 ∧
      (∃ i, crossing.nodeEntry (ended1 5 3 (Decode.relay .west 9)) = some i ∧ crossing.boundNumber i = some 140) ∧
      kindOf (ended1 5 3 (Decode.relay .west 9)).header.kind = Kind.unknown) ∧
    ((ended1 1 513 (Decode.relay .west 9)).chain = some inBlock0 ∧
      (kindOf (ended1 1 513 (Decode.relay .west 9)).header.kind).isAnswer = false ∧
      (kindOf (ended1 1 513 (Decode.relay .west 9)).header.kind).isLending = false ∧
      (ended1 1 513 (Decode.relay .west 9)).decode = Decode.relay .west 9 ∧
      (∃ i, crossing.nodeEntry (ended1 1 513 (Decode.relay .west 9)) = some i ∧ crossing.boundNumber i = some 140) ∧
      kindOf (ended1 1 513 (Decode.relay .west 9)).header.kind ≠ Kind.unknown ∧
      512 < (ended1 1 513 (Decode.relay .west 9)).header.len.toNat) ∧
    ((numberless crossing).check.bad = [] ∧
      (numberless crossing).pool.recovering = false ∧
      (ended1 1 3 (Decode.relay .west 9)).chain = some inBlock0 ∧
      (kindOf (ended1 1 3 (Decode.relay .west 9)).header.kind).isAnswer = false ∧
      (kindOf (ended1 1 3 (Decode.relay .west 9)).header.kind).isLending = false ∧
      (ended1 1 3 (Decode.relay .west 9)).decode = Decode.relay .west 9 ∧
      (∀ (m : Byte), ¬∃ i, (numberless crossing).nodeEntry (ended1 1 3 (Decode.relay .west 9)) = some i ∧ (numberless
        crossing).boundNumber i = some m) ∧
      ((numberless crossing).nodeEntry (ended1 1 3 (Decode.relay .west 9)) ≠ none ∨ (ended1 1 3 (Decode.relay .west 9)).newcomer = true)) ∧
    ((cut .loop crossing).check.bad = [] ∧
      (cut .loop crossing).pool.recovering = false ∧
      (ended1 1 3 (Decode.flood 9)).chain = some inBlock0 ∧
      (kindOf (ended1 1 3 (Decode.flood 9)).header.kind).isAnswer = false ∧
      (kindOf (ended1 1 3 (Decode.flood 9)).header.kind).isLending = false ∧
      (ended1 1 3 (Decode.flood 9)).decode = Decode.flood 9 ∧
      (∃ i, (cut .loop crossing).nodeEntry (ended1 1 3 (Decode.flood 9)) = some i ∧ (cut .loop crossing).boundNumber i = some 140) ∧
      kindOf (ended1 1 3 (Decode.flood 9)).header.kind ≠ Kind.unknown ∧
      (ended1 1 3 (Decode.flood 9)).header.len.toNat ≤ 512 ∧
      (((cut .loop crossing).side .west).state = .joined ∧ ((cut .loop crossing).side (otherSide .west)).state ≠ .joined ∧ ((cut .loop
        crossing).unit .west).queue.length < 32)) ∧
    ((castOnce 140 7 crossing).check.bad = [] ∧
      (castOnce 140 7 crossing).pool.recovering = false ∧
      (ended1 1 3 Decode.broadcast).chain = some inBlock0 ∧
      (kindOf (ended1 1 3 Decode.broadcast).header.kind).isAnswer = false ∧
      (kindOf (ended1 1 3 Decode.broadcast).header.kind).isLending = false ∧
      (ended1 1 3 Decode.broadcast).decode = Decode.broadcast ∧
      (∃ i, (castOnce 140 7 crossing).nodeEntry (ended1 1 3 Decode.broadcast) = some i ∧ (castOnce 140 7 crossing).boundNumber i = some
        140) ∧
      kindOf (ended1 1 3 Decode.broadcast).header.kind ≠ Kind.unknown ∧
      kindOf (ended1 1 3 Decode.broadcast).header.kind ≠ Kind.datagram ∧
      (ended1 1 3 Decode.broadcast).header.len.toNat ≤ 512 ∧
      (castOnce 140 7 crossing).isRepeat 140 (ended1 1 3 Decode.broadcast).header.seq (ended1 1 3 Decode.broadcast).header.kind = true) ∧
    ((∃ i, (cut .loop crossing).nodeEntry (ended1 1 3 Decode.broadcast) = some i ∧ (cut .loop crossing).boundNumber i = some 140) ∧
      (cut .loop crossing).isRepeat 140 (ended1 1 3 Decode.broadcast).header.seq (ended1 1 3 Decode.broadcast).header.kind = false) ∧
    ((upOnly 3 (numberless crossing)).check.bad = [] ∧
      (upOnly 3 (numberless crossing)).pool.recovering = false ∧
      (ended1 2 3 Decode.broadcast).chain = some inBlock0 ∧
      (kindOf (ended1 2 3 Decode.broadcast).header.kind).isAnswer = false ∧
      (kindOf (ended1 2 3 Decode.broadcast).header.kind).isLending = false ∧
      (ended1 2 3 Decode.broadcast).decode = Decode.broadcast ∧
      (∀ (m : Byte), ¬∃ i, (upOnly 3 (numberless crossing)).nodeEntry (ended1 2 3 Decode.broadcast) = some i ∧ (upOnly 3 (numberless
        crossing)).boundNumber i = some m) ∧
      ((upOnly 3 (numberless crossing)).nodeEntry (ended1 2 3 Decode.broadcast) ≠ none ∨ (ended1 2 3 Decode.broadcast).newcomer = true) ∧
      kindOf (ended1 2 3 Decode.broadcast).header.kind = Kind.datagram ∧
      3 ≠ (ended1 2 3 Decode.broadcast).port ∧
      ((upOnly 3 (numberless crossing)).port 3).state = .up ∧
      ((upOnly 3 (numberless crossing)).port 3).queue.length < 16 ∧
      (∀ (q : PortId), q ≠ 3 → q ≠ (ended1 2 3 Decode.broadcast).port → ((upOnly 3 (numberless crossing)).port q).state ≠ .up)) ∧
    ((ended1 1 3 Decode.junction).chain = some inBlock0 ∧
      (kindOf (ended1 1 3 Decode.junction).header.kind).isAnswer = false ∧
      (kindOf (ended1 1 3 Decode.junction).header.kind).isLending = false ∧
      (ended1 1 3 Decode.junction).decode = Decode.junction ∧
      kindOf (ended1 1 3 Decode.junction).header.kind ≠ Kind.inspectReq) ∧
    ((ended1 1 3 Decode.printer).chain = some inBlock0 ∧
      (kindOf (ended1 1 3 Decode.printer).header.kind).isAnswer = false ∧
      (kindOf (ended1 1 3 Decode.printer).header.kind).isLending = false ∧
      (ended1 1 3 Decode.printer).decode = Decode.printer ∧
      (kindOf (ended1 1 3 Decode.printer).header.kind).isPrintRequest = false) ∧
    ((ent 9 (nodeEntry nodeB 1 (.held 150 7)) crossing).check.bad = [] ∧
      (ent 9 (nodeEntry nodeB 1 (.held 150 7)) crossing).pool.recovering = false ∧
      (ended1 1 3 (Decode.entry 9 (some 1))).chain = some inBlock0 ∧
      (kindOf (ended1 1 3 (Decode.entry 9 (some 1))).header.kind).isAnswer = false ∧
      (kindOf (ended1 1 3 (Decode.entry 9 (some 1))).header.kind).isLending = false ∧
      (ended1 1 3 (Decode.entry 9 (some 1))).decode = Decode.entry 9 (some 1) ∧
      2 ≤ ↑9 ∧
      (ent 9 (nodeEntry nodeB 1 (.held 150 7)) crossing).entry 9 = some (nodeEntry nodeB 1 (.held 150 7)) ∧
      (nodeEntry nodeB 1 (.held 150 7)).phase.isHeld = true) ∧
    ((bound150 0 crossing).check.bad = [] ∧
      (bound150 0 crossing).pool.recovering = false ∧
      (ended1 1 3 (Decode.entry 9 (some 0))).chain = some inBlock0 ∧
      (kindOf (ended1 1 3 (Decode.entry 9 (some 0))).header.kind).isAnswer = false ∧
      (kindOf (ended1 1 3 (Decode.entry 9 (some 0))).header.kind).isLending = false ∧
      (ended1 1 3 (Decode.entry 9 (some 0))).decode = Decode.entry 9 (some 0) ∧
      (bound150 0 crossing).entry 9 = some (nodeEntry nodeB 0 (.bound 150)) ∧
      (nodeEntry nodeB 0 (.bound 150)).phase = .bound 150 ∧
      0 = (ended1 1 3 (Decode.entry 9 (some 0))).port) ∧
    ((bound150 1 crossing).check.bad = [] ∧
      (bound150 1 crossing).pool.recovering = false ∧
      (bound150 1 crossing).entry 9 = some (nodeEntry nodeB 1 (.bound 150)) ∧
      (nodeEntry nodeB 1 (.bound 150)).phase = .bound 150 ∧
      1 ≠ (ended1 1 3 (Decode.entry 9 (some 1))).port ∧
      ((bound150 1 crossing).port 1).state = .up ∧
      ((bound150 1 crossing).port 1).queue.length < 16) ∧
    (crossing.check.bad = [] ∧
      crossing.pool.recovering = false ∧
      (ended1 1 3 (.flood 77)).chain = some inBlock0 ∧
      (kindOf (ended1 1 3 (.flood 77)).header.kind).isAnswer = false ∧
      (kindOf (ended1 1 3 (.flood 77)).header.kind).isLending = false ∧
      crossing.nodeEntry (ended1 1 3 (.flood 77)) = some 3 ∧
      crossing.boundNumber 3 = some 140 ∧
      kindOf (ended1 1 3 (.flood 77)).header.kind ≠ .unknown ∧
      kindOf (ended1 1 3 (.flood 77)).header.kind ≠ .datagram ∧
      (ended1 1 3 (.flood 77)).header.len.toNat ≤ 512 ∧
      (∀ x ∈ bothSides, (crossing.side x).state = .joined ∧ (crossing.unit x).queue.length < 32) ∧
      crossing.isRepeat 140 (ended1 1 3 (.flood 77)).header.seq (ended1 1 3 (.flood 77)).header.kind = false ∧
      crossing.pool.records[(0 : BlockNo)].next = none ∧
      Memory.wf crossing.memory = true ∧
      grants crossing (.star (ended1 1 3 (.flood 77)).port) (1) = true) ∧
    (crossing.check.bad = [] ∧
      crossing.pool.recovering = false ∧
      (ended1 1 3 .broadcast).chain = some inBlock0 ∧
      (kindOf (ended1 1 3 .broadcast).header.kind).isAnswer = false ∧
      (kindOf (ended1 1 3 .broadcast).header.kind).isLending = false ∧
      crossing.nodeEntry (ended1 1 3 .broadcast) = some 3 ∧
      crossing.boundNumber 3 = some 140 ∧
      kindOf (ended1 1 3 .broadcast).header.kind ≠ .unknown ∧
      kindOf (ended1 1 3 .broadcast).header.kind ≠ .datagram ∧
      (ended1 1 3 .broadcast).header.len.toNat ≤ 512 ∧
      (∀ x ∈ bothSides, (crossing.side x).state = .joined ∧ (crossing.unit x).queue.length < 32) ∧
      crossing.isRepeat 140 (ended1 1 3 .broadcast).header.seq (ended1 1 3 .broadcast).header.kind = false ∧
      crossing.pool.records[(0 : BlockNo)].next = none ∧
      Memory.wf crossing.memory = true ∧
      grants crossing (.star (ended1 1 3 .broadcast).port) (1) = true) ∧
    ((drained crossing).check.bad = [] ∧
      (drained crossing).pool.recovering = false ∧
      (ended1 1 3 (.flood 77)).chain = some inBlock0 ∧
      (kindOf (ended1 1 3 (.flood 77)).header.kind).isAnswer = false ∧
      (kindOf (ended1 1 3 (.flood 77)).header.kind).isLending = false ∧
      (drained crossing).nodeEntry (ended1 1 3 (.flood 77)) = some 3 ∧
      (drained crossing).boundNumber 3 = some 140 ∧
      kindOf (ended1 1 3 (.flood 77)).header.kind ≠ .unknown ∧
      kindOf (ended1 1 3 (.flood 77)).header.kind ≠ .datagram ∧
      (ended1 1 3 (.flood 77)).header.len.toNat ≤ 512 ∧
      (∀ x ∈ bothSides, ((drained crossing).side x).state = .joined ∧ ((drained crossing).unit x).queue.length < 32) ∧
      (drained crossing).isRepeat 140 (ended1 1 3 (.flood 77)).header.seq (ended1 1 3 (.flood 77)).header.kind = false ∧
      refuses (drained crossing) 1 (.star (ended1 1 3 (.flood 77)).port) .noFree = true) := by
  refine ⟨?_, ?_, ?_, ?_, ?_, ?_, ?_, ?_, ?_, ?_, ?_, ?_, ?_, ?_, ?_, ?_, ?_, ?_, ?_⟩ <;> decide +kernel

/-- A GOOD star frame of node A at its end on port 1: what it holds, and whether its node is listed. -/
def endsGood (f : State) (h : StarHeader) (d : Decode) : Bool :=
  let r := starRxOf f 0
  sound f && decide ((f.port 0).rx = some r) && decide (r.mode = .full) && decide (classifyStar r.bytes = .good) &&
  decide (starHeaderOf r.bytes = some h) && decide (r.decode = some d) && decide ((f.port 0).state = .up) &&
  !malformedSource h.src && (trunkFormNumber f.cfg.trunkPrefix h.src).isNone && decide (f.cfg.baseId ≠ some h.src) &&
  decide (f.cfg.printerId ≠ some h.src) && (f.port 0).nodes.any (fun n => n.ident == h.src)
def endsBlockless (h : StarHeader) (d : Decode) (overrun : Bool) : Bool :=
  let f := starAfter (blockless h.dest h.kind d overrun) 0 []
  endsGood f h d && decide ((starRxOf f 0).overrun = overrun) && (starRxOf f 0).chain.isNone

theorem witness_SwitchedStarFrameJoinsTheOtherQueue_blockless :
    endsBlockless (toB 1) (.switchTo 1) true = true ∧ endsBlockless toAll .broadcast true = true ∧
    endsBlockless (toB 1) .malformed false = true ∧
    (endsBlockless (toB 3) (.switchTo 1) false = true ∧ (kindOf 3).isAnswer = true ∧ (kindOf 1).isAnswer = false ∧
      (kindOf 1).isLending = false) ∧
    endsBlockless (toB 1) .reserved false = true ∧ endsBlockless (toB 1) .quarantine false = true ∧
    endsBlockless (toB 1) .filter false = true ∧ endsBlockless (toB 1) .unreachable false = true ∧
    endsBlockless (toB 1) .noPath false = true ∧ endsBlockless (toB 1) .unresolved false = true := by
  refine ⟨?_, ?_, ?_, ?_, ?_, ?_, ?_, ?_, ?_, ?_⟩ <;> decide +kernel

theorem witness_SwitchedStarFrameJoinsTheOtherQueue_handed :
    (endsGood (starAfter switching 0 frameToB) ⟨nodeB, nodeA, 1, 7, 10⟩ (.switchTo 1) = true ∧
      (starRxOf (starAfter switching 0 frameToB) 0).overrun = false ∧
      (starRxOf (starAfter switching 0 frameToB) 0).chain = some inBlock0) ∧
    (crossing.check.bad = [] ∧ crossing.pool.recovering = false ∧ (ended1 72 5 .junction).chain = some inBlock0 ∧
      kindOf (ended1 72 5 .junction).header.kind = .inspectReq) ∧
    ((ended1 19 2 .printer).chain = some inBlock0 ∧ (kindOf (ended1 19 2 .printer).header.kind).isPrintRequest = true) := by
  refine ⟨?_, ?_, ?_⟩ <;> decide +kernel

theorem witness_NodesJoinAndLeaveTheirLists :
    (lent.check.bad = [] ∧
      malformedSource number7E83 = false ∧
      (lent.cfg.trunkPrefix = BitVec.extractLsb' 8 40 number7E83 ∨ lent.cfg.baseId = some number7E83 ∨ Option.map (fun x => x + 1)
        lent.cfg.baseId = some number7E83)) ∧
    (sixNodes.check.bad = [] ∧
      malformedSource nodeA = false ∧
      ¬(sixNodes.cfg.trunkPrefix = BitVec.extractLsb' 8 40 nodeA ∨ sixNodes.cfg.baseId = some nodeA ∨ Option.map (fun x => x + 1)
        sixNodes.cfg.baseId = some nodeA) ∧
      (∀ (q : PortId) (m : Node), m ∈ (sixNodes.port q).nodes → m.ident ≠ nodeA) ∧
      (sixNodes.port 0).nodes.length = 6) ∧
    (¬(lent.cfg.trunkPrefix = BitVec.extractLsb' 8 40 nodeA ∨ lent.cfg.baseId = some nodeA ∨ Option.map (fun x => x + 1) lent.cfg.baseId
        = some nodeA) ∧
      (∀ (q : PortId) (m : Node), m ∈ (lent.port q).nodes → m.ident ≠ nodeA) ∧
      (lent.port 0).nodes.length < 6 ∧
      2 ≤ ↑2 ∧
      lent.entry 2 = none ∧
      (∀ (k : EntryNo), 2 ≤ ↑k → k < 2 → lent.entry k ≠ none) ∧
      ¬2 ∈ lent.lend.claims) ∧
    (fullTable.check.bad = [] ∧
      ¬(fullTable.cfg.trunkPrefix = BitVec.extractLsb' 8 40 nodeA ∨ fullTable.cfg.baseId = some nodeA ∨ Option.map (fun x => x + 1)
        fullTable.cfg.baseId = some nodeA) ∧
      (∀ (q : PortId) (m : Node), m ∈ (fullTable.port q).nodes → m.ident ≠ nodeA) ∧
      (fullTable.port 0).nodes.length < 6 ∧
      (∀ (k : EntryNo), 2 ≤ ↑k → fullTable.entry k ≠ none)) ∧
    ((nodeOn2 none .unbound lent).check.bad = [] ∧
      (nodeOn2 none .unbound lent).cfg.trunkPrefix ≠ BitVec.extractLsb' 8 40 nodeA ∧
      (nodeOn2 none .unbound lent).cfg.baseId ≠ some nodeA ∧
      Option.map (fun x => x + 1) (nodeOn2 none .unbound lent).cfg.baseId ≠ some nodeA ∧
      (∀ (q : PortId), q ≠ 1 → ∀ (m : Node), m ∈ ((nodeOn2 none .unbound lent).port q).nodes → m.ident ≠ nodeA) ∧
      0 ≠ 1 ∧
      List.find? (fun m => m.ident == nodeA) ((nodeOn2 none .unbound lent).port 1).nodes = some (Node.mk nodeA 4 none) ∧
      ((nodeOn2 none .unbound lent).port 0).nodes.length < 6 ∧
      (Node.mk nodeA 4 none).entry = none) ∧
    ((nodeOn2 (some 3) (.bound 140) lent).check.bad = [] ∧
      (nodeOn2 (some 3) (.bound 140) lent).cfg.trunkPrefix ≠ BitVec.extractLsb' 8 40 nodeA ∧
      (nodeOn2 (some 3) (.bound 140) lent).cfg.baseId ≠ some nodeA ∧
      Option.map (fun x => x + 1) (nodeOn2 (some 3) (.bound 140) lent).cfg.baseId ≠ some nodeA ∧
      (∀ (q : PortId), q ≠ 1 → ∀ (m : Node), m ∈ ((nodeOn2 (some 3) (.bound 140) lent).port q).nodes → m.ident ≠ nodeA) ∧
      List.find? (fun m => m.ident == nodeA) ((nodeOn2 (some 3) (.bound 140) lent).port 1).nodes = some (Node.mk nodeA 4 (some 3)) ∧
      ((nodeOn2 (some 3) (.bound 140) lent).port 0).nodes.length < 6 ∧
      (Node.mk nodeA 4 (some 3)).entry = some 3 ∧
      (nodeOn2 (some 3) (.bound 140) lent).entry 3 = some (nodeEntry nodeA 1 (.bound 140)) ∧
      (nodeEntry nodeA 1 (.bound 140)).phase = .bound 140 ∧
      (nodeOn2 (some 3) (.bound 140) lent).dir 140 = some (DirRecord.mk (.own (some 1) nodeA 3) 0 0 none none) ∧
      (DirRecord.mk (.own (some 1) nodeA 3) 0 0 none none).holder = .own (some 1) nodeA 3) ∧
    ((nodeOn2 none .unbound sixNodes).check.bad = [] ∧
      (nodeOn2 none .unbound sixNodes).cfg.trunkPrefix ≠ BitVec.extractLsb' 8 40 nodeA ∧
      (nodeOn2 none .unbound sixNodes).cfg.baseId ≠ some nodeA ∧
      Option.map (fun x => x + 1) (nodeOn2 none .unbound sixNodes).cfg.baseId ≠ some nodeA ∧
      (∀ (q : PortId), q ≠ 1 → ∀ (m : Node), m ∈ ((nodeOn2 none .unbound sixNodes).port q).nodes → m.ident ≠ nodeA) ∧
      List.find? (fun m => m.ident == nodeA) ((nodeOn2 none .unbound sixNodes).port 1).nodes = some (Node.mk nodeA 4 none) ∧
      6 ≤ ((nodeOn2 none .unbound sixNodes).port 0).nodes.length) ∧
    (calm ((aging 3000000000).arrive (at_ T)) = true ∧
      List.find? (fun m => m.ident == nodeA) (((aging 3000000000).arrive (at_ T)).port 0).nodes = some (oldNode 3000000000) ∧
      (((aging 3000000000).arrive (at_ T)).port 0).state = .up ∧
      (oldNode 3000000000).lastHeard + ((aging 3000000000).arrive (at_ T)).cfg.nodeAge * Config.sec ≤ ((aging 3000000000).arrive (at_
        T)).now ∧
      (oldNode 3000000000).entry = none) ∧
    (calm (upPort.arrive (at_ T)) = true ∧
      List.find? (fun m => m.ident == 5) ((upPort.arrive (at_ T)).port 0).nodes = some (Node.mk 5 3 (some 4)) ∧
      ((upPort.arrive (at_ T)).port 0).state = .up ∧
      (Node.mk 5 3 (some 4)).lastHeard + (upPort.arrive (at_ T)).cfg.nodeAge * Config.sec ≤ (upPort.arrive (at_ T)).now ∧
      (Node.mk 5 3 (some 4)).entry = some 4 ∧
      (upPort.arrive (at_ T)).entry 4 = some (nodeEntry 5 0 (.failed 7)) ∧
      (nodeEntry 5 0 (.failed 7)).phase.holds = none) ∧
    (List.find? (fun m => m.ident == nodeA) ((upPort.arrive (at_ T)).port 0).nodes = some (Node.mk nodeA 4 (some 3)) ∧
      (Node.mk nodeA 4 (some 3)).lastHeard + (upPort.arrive (at_ T)).cfg.nodeAge * Config.sec ≤ (upPort.arrive (at_ T)).now ∧
      (upPort.arrive (at_ T)).entry 3 = some (nodeEntry nodeA 0 (.bound 140)) ∧
      (nodeEntry nodeA 0 (.bound 140)).phase.holds = some 140) ∧
    (calm ((aging 2999999999).arrive (at_ T)) = true ∧
      List.find? (fun m => m.ident == nodeA) (((aging 2999999999).arrive (at_ T)).port 0).nodes = some (oldNode 2999999999) ∧
      ((((aging 2999999999).arrive (at_ T)).port 0).state ≠ .up ∨ ((aging 2999999999).arrive (at_ T)).now < (oldNode 2999999999).lastHeard
        + ((aging 2999999999).arrive (at_ T)).cfg.nodeAge * Config.sec)) := by
  refine ⟨?_, ?_, ?_, ?_, ?_, ?_, ?_, ?_, ?_, ?_, ?_⟩ <;> decide +kernel

theorem witness_StarPortSendsItsHeadRecord :
    (calm ((starQueued switched (some (T - 96)) none).arrive (at_ T)) = true ∧
      (((starQueued switched (some (T - 96)) none).arrive (at_ T)).port 0).queue = [switched] ∧
      (((starQueued switched (some (T - 96)) none).arrive (at_ T)).port 0).state = .up ∧
      (((starQueued switched (some (T - 96)) none).arrive (at_ T)).port 0).sending = none ∧
      ((((starQueued switched (some (T - 96)) none).arrive (at_ T)).port 0).lastSent = none ∨ ∃ t, (((starQueued switched (some (T - 96))
        none).arrive (at_ T)).port 0).lastSent = some t ∧ t + 96 ≤ ((starQueued switched (some (T - 96)) none).arrive (at_ T)).now)) ∧
    (calm ((starQueued switched (some (T - 95)) none).arrive (at_ T)) = true ∧
      (((starQueued switched (some (T - 95)) none).arrive (at_ T)).port 0).queue = [switched] ∧
      ((((starQueued switched (some (T - 95)) none).arrive (at_ T)).port 0).state ≠ .up ∨ (((starQueued switched (some (T - 95))
        none).arrive (at_ T)).port 0).sending ≠ none ∨ ¬((((starQueued switched (some (T - 95)) none).arrive (at_ T)).port 0).lastSent =
        none ∨ ∃ t, (((starQueued switched (some (T - 95)) none).arrive (at_ T)).port 0).lastSent = some t ∧ t + 96 ≤ ((starQueued
        switched (some (T - 95)) none).arrive (at_ T)).now))) ∧
    (calm ((starQueued starSending none (some (T - 192))).arrive (at_ T)) = true ∧
      (((starQueued starSending none (some (T - 192))).arrive (at_ T)).port 0).queue = [starSending] ∧
      (((starQueued starSending none (some (T - 192))).arrive (at_ T)).port 0).sending = some (T - 192) ∧
      T - 192 + 8 * (((starQueued starSending none (some (T - 192))).arrive (at_ T)).port 0).lineOut.length ≤ ((starQueued starSending
        none (some (T - 192))).arrive (at_ T)).now) ∧
    (calm ((starQueued starSending none (some (T - 191))).arrive (at_ T)) = true ∧
      (((starQueued starSending none (some (T - 191))).arrive (at_ T)).port 0).queue = [starSending] ∧
      (((starQueued starSending none (some (T - 191))).arrive (at_ T)).port 0).sending = some (T - 191) ∧
      ((starQueued starSending none (some (T - 191))).arrive (at_ T)).now < T - 191 + 8 * (((starQueued starSending none (some (T -
        191))).arrive (at_ T)).port 0).lineOut.length) := by
  refine ⟨?_, ?_, ?_, ?_⟩ <;> decide +kernel

theorem witness_LearningCountsMovesInWindows :
    (lent.check.bad = [] ∧
      lent.dir 9 = none) ∧
    ((known 9 (moved (.legacy .west) 1 none none) lent).check.bad = [] ∧
      (known 9 (moved (.legacy .west) 1 none none) lent).dir 9 = some (moved (.legacy .west) 1 none none) ∧
      ((moved (.legacy .west) 1 none none).side = some .west ∨ (moved (.legacy .west) 1 none none).side ≠ none ∧ (moved (.legacy .west) 1
        none none).quarantine ≠ none)) ∧
    ((known 9 (moved (.own none 3 4) 1 none none) lent).check.bad = [] ∧
      (known 9 (moved (.own none 3 4) 1 none none) lent).dir 9 = some (moved (.own none 3 4) 1 none none) ∧
      (moved (.own none 3 4) 1 none none).side = none) ∧
    ((known 9 (moved (.remote .east 5 6) 4 (some (T - 99999999)) none) lent).check.bad = [] ∧
      (known 9 (moved (.remote .east 5 6) 4 (some (T - 99999999)) none) lent).dir 9 = some (moved (.remote .east 5 6) 4 (some (T -
        99999999)) none) ∧
      (moved (.remote .east 5 6) 4 (some (T - 99999999)) none).side = some .east ∧
      Side.east ≠ .west ∧
      (moved (.remote .east 5 6) 4 (some (T - 99999999)) none).quarantine = none) ∧
    ((moved (.legacy .east) 4 (some (T - 100000000)) none).quarantine = none ∧
      ((moved (.legacy .east) 4 (some (T - 100000000)) none).windowStart = none ∨ ∃ w, (moved (.legacy .east) 4 (some (T - 100000000))
        none).windowStart = some w ∧ w + 10 * Config.sec ≤ T)) ∧
    ((moved (.legacy .east) 3 (some (T - 99999999)) none).quarantine = none ∧
      ¬((moved (.legacy .east) 3 (some (T - 99999999)) none).windowStart = none ∨ ∃ w, (moved (.legacy .east) 3 (some (T - 99999999))
        none).windowStart = some w ∧ w + 10 * Config.sec ≤ T) ∧
      (moved (.legacy .east) 3 (some (T - 99999999)) none).moves < 4) ∧
    ((moved (.legacy .east) 4 (some (T - 99999999)) none).quarantine = none ∧
      ¬((moved (.legacy .east) 4 (some (T - 99999999)) none).windowStart = none ∨ ∃ w, (moved (.legacy .east) 4 (some (T - 99999999))
        none).windowStart = some w ∧ w + 10 * Config.sec ≤ T) ∧
      (moved (.legacy .east) 4 (some (T - 99999999)) none).moves = 4) := by
  refine ⟨?_, ?_, ?_, ?_, ?_, ?_, ?_⟩ <;> decide +kernel

theorem witness_AgeAndQuarantineExpire :
    (calm ((known 9 (agedBy (.legacy .west) none 6000000000) lent).arrive (at_ T)) = true ∧
      ((known 9 (agedBy (.legacy .west) none 6000000000) lent).arrive (at_ T)).admin.device ≠ .loading ∧
      ((known 9 (agedBy (.legacy .west) none 6000000000) lent).arrive (at_ T)).dir 9 = some (agedBy (.legacy .west) none 6000000000) ∧
      (agedBy (.legacy .west) none 6000000000).isLegacy = true ∧
      (agedBy (.legacy .west) none 6000000000).quarantine = none ∧
      (agedBy (.legacy .west) none 6000000000).lastHeard + ((known 9 (agedBy (.legacy .west) none 6000000000) lent).arrive (at_
        T)).cfg.directoryAge * Config.sec ≤ ((known 9 (agedBy (.legacy .west) none 6000000000) lent).arrive (at_ T)).now) ∧
    (calm ((known 9 (agedBy (.legacy .west) none 5999999999) lent).arrive (at_ T)) = true ∧
      ((known 9 (agedBy (.legacy .west) none 5999999999) lent).arrive (at_ T)).admin.device ≠ .loading ∧
      ((known 9 (agedBy (.legacy .west) none 5999999999) lent).arrive (at_ T)).dir 9 = some (agedBy (.legacy .west) none 5999999999) ∧
      ((agedBy (.legacy .west) none 5999999999).isLegacy = false ∨ (agedBy (.legacy .west) none 5999999999).quarantine ≠ none ∨ ¬(agedBy
        (.legacy .west) none 5999999999).lastHeard + ((known 9 (agedBy (.legacy .west) none 5999999999) lent).arrive (at_
        T)).cfg.directoryAge * Config.sec ≤ ((known 9 (agedBy (.legacy .west) none 5999999999) lent).arrive (at_ T)).now)) ∧
    (calm ((known 9 (agedBy (.legacy .west) (some T) 6000000000) lent).arrive (at_ T)) = true ∧
      ((known 9 (agedBy (.legacy .west) (some T) 6000000000) lent).arrive (at_ T)).admin.device ≠ .loading ∧
      ((known 9 (agedBy (.legacy .west) (some T) 6000000000) lent).arrive (at_ T)).dir 9 = some (agedBy (.legacy .west) (some T)
        6000000000) ∧
      (agedBy (.legacy .west) (some T) 6000000000).quarantine = some T ∧
      T ≤ ((known 9 (agedBy (.legacy .west) (some T) 6000000000) lent).arrive (at_ T)).now ∧
      (agedBy (.legacy .west) (some T) 6000000000).isLegacy = true ∧
      (agedBy (.legacy .west) (some T) 6000000000).lastHeard + ((known 9 (agedBy (.legacy .west) (some T) 6000000000) lent).arrive (at_
        T)).cfg.directoryAge * Config.sec ≤ ((known 9 (agedBy (.legacy .west) (some T) 6000000000) lent).arrive (at_ T)).now) ∧
    (calm ((known 9 (agedBy (.legacy .west) (some T) 5999999999) lent).arrive (at_ T)) = true ∧
      ((known 9 (agedBy (.legacy .west) (some T) 5999999999) lent).arrive (at_ T)).admin.device ≠ .loading ∧
      ((known 9 (agedBy (.legacy .west) (some T) 5999999999) lent).arrive (at_ T)).dir 9 = some (agedBy (.legacy .west) (some T)
        5999999999) ∧
      (agedBy (.legacy .west) (some T) 5999999999).quarantine = some T ∧
      T ≤ ((known 9 (agedBy (.legacy .west) (some T) 5999999999) lent).arrive (at_ T)).now ∧
      ((agedBy (.legacy .west) (some T) 5999999999).isLegacy = false ∨ ¬(agedBy (.legacy .west) (some T) 5999999999).lastHeard + ((known 9
        (agedBy (.legacy .west) (some T) 5999999999) lent).arrive (at_ T)).cfg.directoryAge * Config.sec ≤ ((known 9 (agedBy (.legacy
        .west) (some T) 5999999999) lent).arrive (at_ T)).now)) ∧
    (calm ((known 9 (agedBy (.legacy .west) (some (T + 1)) 6000000000) lent).arrive (at_ T)) = true ∧
      ((known 9 (agedBy (.legacy .west) (some (T + 1)) 6000000000) lent).arrive (at_ T)).admin.device ≠ .loading ∧
      ((known 9 (agedBy (.legacy .west) (some (T + 1)) 6000000000) lent).arrive (at_ T)).dir 9 = some (agedBy (.legacy .west) (some (T +
        1)) 6000000000) ∧
      (∀ (t : Time), (agedBy (.legacy .west) (some (T + 1)) 6000000000).quarantine = some t → ((known 9 (agedBy (.legacy .west) (some (T +
        1)) 6000000000) lent).arrive (at_ T)).now < t)) := by
  refine ⟨?_, ?_, ?_, ?_, ?_⟩ <;> decide +kernel

theorem witness_RecentBroadcastsStandTwoSeconds :
    ((casts [Tests.cast 20000000, Tests.cast 4]).arrive (at_ T)).engine.broadcasts = [Tests.cast 20000000, Tests.cast 4] ∧
    (∃ b, b ∈ (casts [Tests.cast 4]).engine.broadcasts ∧ b.src = 1 ∧ b.seq = 2 ∧ b.kind = 3) ∧
    (∀ (b : BroadcastEntry), b ∈ (casts [Tests.cast 4]).engine.broadcasts → ¬(b.src = 1 ∧ b.seq = 2 ∧ b.kind = 4)) := by
  refine ⟨?_, ?_, ?_⟩ <;> decide +kernel

theorem witness_LendingFrameIsFormedAndPlaced :
    (calm (bothCut) = true ∧
      Memory.wf bothCut.memory = true ∧
      Kind.claim ≠ Kind.announce ∧
      (run255 13).length ≤ 13 ∧
      bothCut.joined .west = false ∧
      bothCut.joined .east = false) ∧
    (calm (drained lent) = true ∧
      Memory.wf (drained lent).memory = true ∧
      ((drained lent).joined .west = true ∨ (drained lent).joined .east = true) ∧
      refuses (drained lent) (1) (.internal) (PoolCount.noFree) = true) ∧
    (calm (capped) = true ∧
      Memory.wf capped.memory = true ∧
      (capped.joined .west = true ∨ capped.joined .east = true) ∧
      refuses (capped) (1) (.internal) (PoolCount.forwardCap) = true) ∧
    (calm (cut .loop lent) = true ∧
      Memory.wf (cut .loop lent).memory = true ∧
      Kind.release ≠ Kind.announce ∧
      (run255 7).length ≤ 13 ∧
      (cut .loop lent).joined .west = true ∧
      (cut .loop lent).joined (otherSide .west) = false ∧
      grants (cut .loop lent) (.internal) (0) = true ∧
      ((cut .loop lent).unit .west).queue.length < 32 ∧
      (cut .loop lent).isRepeat 140 (cut .loop lent).lend.seq Kind.release.code = false) ∧
    (calm (lent) = true ∧
      Memory.wf lent.memory = true ∧
      Kind.defend ≠ Kind.announce ∧
      lent.joined .west = true ∧
      lent.joined .east = true ∧
      0 ≠ 1 ∧
      grants (lent) (.internal) (0) = true ∧
      lent.pool.records[0].next = some 1 ∧
      2 ≤ lent.pool.free ∧
      lent.pool.forwardingHeld + 2 ≤ lent.cfg.forwardCap ∧
      lent.heldCount .internal + 2 ≤ lent.cfg.portQuota ∧
      lent.underTest 1 = false ∧
      (lent.unit .west).queue.length < 32 ∧
      (lent.unit .east).queue.length < 32 ∧
      lent.isRepeat 140 lent.lend.seq Kind.defend.code = false) ∧
    ((∀ w ∈ ([controlled] ++ [relayed]).head?, w.begun = false) ∧
      current.begun = true ∧
      (∀ w ∈ [controlled], w.cls = .control) ∧
      (∀ w ∈ [relayed], w.cls = .ordinary)) ∧
    (relayed.proxyAcked = false ∧
      lent.pool.recovering = false ∧
      (lent.unit .west).queue.length < 32 ∧
      (lent.side .west).state = .joined ∧
      (crammed .west lent).pool.recovering = false ∧
      32 ≤ ((crammed .west lent).unit .west).queue.length ∧
      bothCut.pool.recovering = false ∧
      (bothCut.side .east).state ≠ .joined) := by
  refine ⟨?_, ?_, ?_, ?_, ?_, ?_, ?_⟩ <;> decide +kernel

theorem witness_ClaimBeginsWithTheFirstFreeNumber :
    (calm (seeking.arrive (at_ T)) = true ∧
      (seeking.arrive (at_ T)).admin.device = .run ∧
      (seeking.arrive (at_ T)).lend.claims = [2, 7] ∧
      (seeking.arrive (at_ T)).entry 2 = some seeker ∧
      (seeking.arrive (at_ T)).probers < 2 ∧
      ((seeking.arrive (at_ T)).side .west).state = .joined ∧
      0 < (seeking.arrive (at_ T)).cfg.lendHigh - (seeking.arrive (at_ T)).cfg.lendLow + 1 ∧
      BitVec.ofNat 8 ((seeking.arrive (at_ T)).cfg.lendLow + (seeker.ident.toNat % ((seeking.arrive (at_ T)).cfg.lendHigh -
        (seeking.arrive (at_ T)).cfg.lendLow + 1) + 0) % ((seeking.arrive (at_ T)).cfg.lendHigh - (seeking.arrive (at_ T)).cfg.lendLow +
        1)) = 209 ∧ (seeking.arrive (at_ T)).dir 209 = none ∧ 209 ∉ (seeking.arrive (at_ T)).lend.avoid ∧ allEntries (seeking.arrive (at_
        T)) (fun k d => decide (k = 2 ∨ d.phase.number ≠ some 209)) = true) ∧
    (calm (allKnown.arrive (at_ T)) = true ∧
      (allKnown.arrive (at_ T)).admin.device = .run ∧
      (allKnown.arrive (at_ T)).lend.claims = [2, 7] ∧
      (allKnown.arrive (at_ T)).entry 2 = some seeker ∧
      (allKnown.arrive (at_ T)).probers < 2 ∧
      ((allKnown.arrive (at_ T)).side .west).state = .joined ∧
      (List.range 256).all (fun m => decide (m < (allKnown.arrive (at_ T)).cfg.lendLow ∨ (allKnown.arrive (at_ T)).cfg.lendHigh < m ∨
        (allKnown.arrive (at_ T)).dir (BitVec.ofNat 8 m) ≠ none)) = true) ∧
    (calm (twoProbe.arrive (at_ T)) = true ∧
      (twoProbe.arrive (at_ T)).admin.device = .run ∧
      (twoProbe.arrive (at_ T)).lend.claims = [2, 7] ∧
      (twoProbe.arrive (at_ T)).entry 2 = some seeker ∧
      2 ≤ (twoProbe.arrive (at_ T)).probers) := by
  refine ⟨?_, ?_, ?_⟩ <;> decide +kernel

theorem witness_ProbesClaimThreeTimesAndBind :
    (calm ((probing 2 2 5000000).arrive (at_ T)) = true ∧
      ((probing 2 2 5000000).arrive (at_ T)).admin.device = .run ∧
      ((probing 2 2 5000000).arrive (at_ T)).entry 2 = some (prober 2 2 5000000) ∧
      (prober 2 2 5000000).phase = .probing 209 (ProbeClock.running (T - 5000000)) ∧
      (prober 2 2 5000000).dues < 3 ∧
      T - 5000000 + (prober 2 2 5000000).dues * (250 * Config.ms) ≤ ((probing 2 2 5000000).arrive (at_ T)).now) ∧
    (calm ((probing 2 2 4999999).arrive (at_ T)) = true ∧
      ((probing 2 2 4999999).arrive (at_ T)).admin.device = .run ∧
      ((probing 2 2 4999999).arrive (at_ T)).entry 2 = some (prober 2 2 4999999) ∧
      (prober 2 2 4999999).phase = .probing 209 (ProbeClock.running (T - 4999999)) ∧
      (3 ≤ (prober 2 2 4999999).dues ∨ ((probing 2 2 4999999).arrive (at_ T)).now < T - 4999999 + (prober 2 2 4999999).dues * (250 *
        Config.ms))) ∧
    (calm ((probing 3 3 7500000).arrive (at_ T)) = true ∧
      ((probing 3 3 7500000).arrive (at_ T)).admin.device = .run ∧
      ((probing 3 3 7500000).arrive (at_ T)).entry 2 = some (prober 3 3 7500000) ∧
      (prober 3 3 7500000).phase = .probing 209 (ProbeClock.running (T - 7500000)) ∧
      T - 7500000 + 750 * Config.ms ≤ ((probing 3 3 7500000).arrive (at_ T)).now ∧
      (prober 3 3 7500000).probes = 3) ∧
    (calm ((port 0 (fun q => Port.mk .down q.nodes q.queue q.staging q.rx q.window q.totals q.k q.lastRestore q.sending q.lineOut
        q.lastSent q.ignoreBefore q.countBefore q.leftUp q.windowEnd q.holdEnd q.isolations) (probing 3 3 7500000)).arrive (at_ T)) = true ∧
      ((port 0 (fun q => Port.mk .down q.nodes q.queue q.staging q.rx q.window q.totals q.k q.lastRestore q.sending q.lineOut q.lastSent
        q.ignoreBefore q.countBefore q.leftUp q.windowEnd q.holdEnd q.isolations) (probing 3 3 7500000)).arrive (at_ T)).admin.device = .run ∧
      ((port 0 (fun q => Port.mk .down q.nodes q.queue q.staging q.rx q.window q.totals q.k q.lastRestore q.sending q.lineOut q.lastSent
        q.ignoreBefore q.countBefore q.leftUp q.windowEnd q.holdEnd q.isolations) (probing 3 3 7500000)).arrive (at_ T)).entry 2 = some (prober 3 3 7500000) ∧
      T - 7500000 + 750 * Config.ms ≤ ((port 0 (fun q => Port.mk .down q.nodes q.queue q.staging q.rx q.window q.totals q.k q.lastRestore
        q.sending q.lineOut q.lastSent q.ignoreBefore q.countBefore q.leftUp q.windowEnd q.holdEnd q.isolations) (probing 3 3 7500000)).arrive (at_ T)).now) ∧
    (calm ((probing 2 3 7500000).arrive (at_ T)) = true ∧
      ((probing 2 3 7500000).arrive (at_ T)).admin.device = .run ∧
      ((probing 2 3 7500000).arrive (at_ T)).entry 2 = some (prober 2 3 7500000) ∧
      (prober 2 3 7500000).phase = .probing 209 (ProbeClock.running (T - 7500000)) ∧
      T - 7500000 + 750 * Config.ms ≤ ((probing 2 3 7500000).arrive (at_ T)).now ∧
      (prober 2 3 7500000).probes ≠ 3 ∧
      (((probing 2 3 7500000).arrive (at_ T)).side .west).state = .joined) ∧
    (calm ((probing 3 3 7499999).arrive (at_ T)) = true ∧
      ((probing 3 3 7499999).arrive (at_ T)).admin.device = .run ∧
      ((probing 3 3 7499999).arrive (at_ T)).entry 2 = some (prober 3 3 7499999) ∧
      (prober 3 3 7499999).phase = .probing 209 (ProbeClock.running (T - 7499999)) ∧
      ((probing 3 3 7499999).arrive (at_ T)).now < T - 7499999 + 750 * Config.ms) ∧
    ((contending 15).check.bad = [] ∧
      (contending 15).entry 2 = some (triedProber 15) ∧
      (triedProber 15).phase = .probing 209 (ProbeClock.running (T - 5000000)) ∧
      (∀ (k : EntryNo) (d : AliasEntry), (contending 15).entry k = some d → d.phase.number = some 209 → k = 2) ∧
      15 ≤ (triedProber 15).tried) ∧
    ((contending 14).check.bad = [] ∧
      (contending 14).entry 2 = some (triedProber 14) ∧
      (triedProber 14).phase = .probing 209 (ProbeClock.running (T - 5000000)) ∧
      (∀ (k : EntryNo) (d : AliasEntry), (contending 14).entry k = some d → d.phase.number = some 209 → k = 2) ∧
      nodeA = (triedProber 14).ident ∧
      275062460416 = (contending 14).cfg.baseId.getD 0) ∧
    (nodeLow ≠ (triedProber 14).ident ∧ nodeLow < (triedProber 14).ident ∨ nodeLow = (triedProber 14).ident ∧ peerId < (contending
      14).cfg.baseId.getD 0) ∧
    (¬(nodeB ≠ (triedProber 14).ident ∧ nodeB < (triedProber 14).ident ∨ nodeB = (triedProber 14).ident ∧ peerId < (contending
        14).cfg.baseId.getD 0) ∧
      (nodeB ≠ (triedProber 14).ident ∨ peerId ≠ (contending 14).cfg.baseId.getD 0)) ∧
    ((contending 3).check.bad = [] ∧
      (contending 3).entry 2 = some (triedProber 3) ∧
      (triedProber 3).phase = .probing 209 (.running (T - 5000000)) ∧
      allEntries (contending 3) (fun k d => decide (d.phase.number ≠ some 209 ∨ k = 2)) = true ∧
      (triedProber 3).tried < 15 ∧
      afterLoss (contending 3) (triedProber 3) 209 1 = true ∧
      (afterLoss (contending 3) (triedProber 3) 209 0) = false ∧
      ((contending 3).side .west).state = .joined) ∧
    (contendingCut.check.bad = [] ∧
      contendingCut.entry 2 = some (triedProber 14) ∧
      (triedProber 14).phase = .probing 209 (.running (T - 5000000)) ∧
      allEntries contendingCut (fun k d => decide (d.phase.number ≠ some 209 ∨ k = 2)) = true ∧
      (triedProber 14).tried < 15 ∧
      afterLoss contendingCut (triedProber 14) 209 1 = true ∧
      (afterLoss contendingCut (triedProber 14) 209 0) = false ∧
      (∀ y ∈ bothSides, (contendingCut.side y).state ≠ .joined)) ∧
    (contendingAllKnown.check.bad = [] ∧
      contendingAllKnown.entry 2 = some (triedProber 3) ∧
      (triedProber 3).phase = .probing 209 (.running (T - 5000000)) ∧
      allEntries contendingAllKnown (fun k d => decide (d.phase.number ≠ some 209 ∨ k = 2)) = true ∧
      (triedProber 3).tried < 15 ∧
      (List.range 96).all (fun k => !afterLoss contendingAllKnown (triedProber 3) 209 k) = true) ∧
    (calm (pausedProbe.arrive (at_ T)) = true ∧
      (pausedProbe.arrive (at_ T)).admin.device = .run ∧
      (pausedProbe.arrive (at_ T)).entry 2 = some (pausedProber 7) ∧
      (pausedProber 7).phase = .probing 209 (.paused 7)) ∧
    (contendingCut.check.bad = [] ∧
      (∀ y ∈ bothSides, (contendingCut.side y).state ≠ .joined) ∧
      (contending 3).check.bad = [] ∧
      ((contending 3).side .west).state = .joined) := by
  refine ⟨?_, ?_, ?_, ?_, ?_, ?_, ?_, ?_, ?_, ?_, ?_, ?_, ?_, ?_, ?_⟩ <;> decide +kernel

theorem witness_FailedAndHeldEntriesExpire :
    (calm ((failed T).arrive (at_ T)) = true ∧
      ((failed T).arrive (at_ T)).admin.device = .run ∧
      ((failed T).arrive (at_ T)).entry 2 = some (nodeEntry nodeA 0 (.failed T)) ∧
      (nodeEntry nodeA 0 (.failed T)).phase = .failed T ∧
      T ≤ ((failed T).arrive (at_ T)).now ∧
      ¬2 ∈ ((failed T).arrive (at_ T)).lend.claims) ∧
    (calm ((failed (T + 1)).arrive (at_ T)) = true ∧
      ((failed (T + 1)).arrive (at_ T)).admin.device = .run ∧
      ((failed (T + 1)).arrive (at_ T)).entry 2 = some (nodeEntry nodeA 0 (.failed (T + 1))) ∧
      (nodeEntry nodeA 0 (.failed (T + 1))).phase = .failed (T + 1) ∧
      ((failed (T + 1)).arrive (at_ T)).now < T + 1) ∧
    (calm ((holding T).arrive (at_ T)) = true ∧
      ((holding T).arrive (at_ T)).admin.device = .run ∧
      ((holding T).arrive (at_ T)).entry 2 = some (nodeEntry nodeA 0 (.held 140 T)) ∧
      (nodeEntry nodeA 0 (.held 140 T)).phase = .held 140 T ∧
      T ≤ ((holding T).arrive (at_ T)).now ∧
      ((holding T).arrive (at_ T)).dir 140 = some holder140 ∧
      holder140.holder = .own (some 0) nodeA 2 ∧
      (∀ (k : Slot) (j : Job), ((holding T).arrive (at_ T)).job k = some j → j.originator ≠ some 140)) ∧
    (calm ((holding (T + 1)).arrive (at_ T)) = true ∧
      ((holding (T + 1)).arrive (at_ T)).admin.device = .run ∧
      ((holding (T + 1)).arrive (at_ T)).entry 2 = some (nodeEntry nodeA 0 (.held 140 (T + 1))) ∧
      (nodeEntry nodeA 0 (.held 140 (T + 1))).phase = .held 140 (T + 1) ∧
      ((holding (T + 1)).arrive (at_ T)).now < T + 1) ∧
    ((holding (T + 1)).check.bad = [] ∧
      (holding (T + 1)).entry 2 = some (nodeEntry nodeA 0 (.held 140 (T + 1))) ∧
      (nodeEntry nodeA 0 (.held 140 (T + 1))).phase.holds = some 140 ∧
      ¬2 ∈ (holding (T + 1)).lend.claims ∧
      (holding (T + 1)).dir 140 = some holder140 ∧
      (∀ (k : Slot) (j : Job), (holding (T + 1)).job k = some j → j.originator ≠ some 140)) ∧
    ((nodeEntry nodeA 0 (.held 140 (T + 1))).ident ≠ nodeB ∧ (nodeEntry nodeA 0 (.held 140 (T + 1))).ident < nodeB ∨ (nodeEntry nodeA 0
      (.held 140 (T + 1))).ident = nodeB ∧ (holding (T + 1)).cfg.baseId.getD 0 < peerId) ∧
    ¬((nodeEntry nodeA 0 (.held 140 (T + 1))).ident ≠ nodeLow ∧ (nodeEntry nodeA 0 (.held 140 (T + 1))).ident < nodeLow ∨ (nodeEntry nodeA
      0 (.held 140 (T + 1))).ident = nodeLow ∧ (holding (T + 1)).cfg.baseId.getD 0 < peerId) ∧
    ((∀ (k : EntryNo) (d : AliasEntry), (holding (T + 1)).entry k = some d → d.phase.number = some 140 → k = 2) ∧
      275062460416 = (holding (T + 1)).cfg.baseId.getD 0) := by
  refine ⟨?_, ?_, ?_, ?_, ?_, ?_, ?_, ?_⟩ <;> decide +kernel

theorem listedOnly_names :
    List.filterMap (fun i => if i = 0 then none else (((announcing T listedOnly).arrive (at_ T)).entry i).bind fun c => Option.map (fun n =>
      (n, c.ident, c.phase.isHeld)) c.phase.holds) (List.finRange 32) = [(151, 5, false), (150, 6, true)] := by
  decide +kernel

theorem witness_AnnounceCarriesTheTable :
    (calm ((announcing T run).arrive (at_ T)) = true ∧
      ((announcing T run).arrive (at_ T)).admin.device = .run ∧
      ((announcing T run).arrive (at_ T)).lend.announceAt = some T ∧
      T ≤ ((announcing T run).arrive (at_ T)).now ∧
      (((announcing T run).arrive (at_ T)).boundNumber 0).getD 0 = 0 ∧
      List.filterMap (fun i => if i = 0 then none else (((announcing T run).arrive (at_ T)).entry i).bind fun c => Option.map (fun n =>
        (n, c.ident, c.phase.isHeld)) c.phase.holds) (List.finRange 32) = []) ∧
    (calm ((announcing T listed).arrive (at_ T)) = true ∧
      ((announcing T listed).arrive (at_ T)).admin.device = .run ∧
      ((announcing T listed).arrive (at_ T)).lend.announceAt = some T ∧
      T ≤ ((announcing T listed).arrive (at_ T)).now ∧
      ((((announcing T listed).arrive (at_ T)).boundNumber 0).getD 0 ≠ 0 ∨ List.filterMap (fun i => if i = 0 then none else (((announcing
        T listed).arrive (at_ T)).entry i).bind fun c => Option.map (fun n => (n, c.ident, c.phase.isHeld)) c.phase.holds) (List.finRange
        32) ≠ []) ∧
      ((((announcing T listed).arrive (at_ T)).boundNumber 0).getD 0 ≠ 0 → 131 = (((announcing T listed).arrive (at_ T)).boundNumber
        0).getD 0) ∧
      ((((announcing T listed).arrive (at_ T)).boundNumber 0).getD 0 = 0 → (∃ m, m ∈ List.filterMap (fun i => if i = 0 then none else
        (((announcing T listed).arrive (at_ T)).entry i).bind fun c => Option.map (fun n => (n, c.ident, c.phase.isHeld)) c.phase.holds)
        (List.finRange 32) ∧ m.fst = 131) ∧ ∀ (m : Byte × Ident × Bool), m ∈ List.filterMap (fun i => if i = 0 then none else
        (((announcing T listed).arrive (at_ T)).entry i).bind fun c => Option.map (fun n => (n, c.ident, c.phase.isHeld)) c.phase.holds)
        (List.finRange 32) → m.fst ≠ 0 ∧ 131 ≤ m.fst)) ∧
    (calm ((announcing T listedOnly).arrive (at_ T)) = true ∧
      ((announcing T listedOnly).arrive (at_ T)).admin.device = .run ∧
      ((announcing T listedOnly).arrive (at_ T)).lend.announceAt = some T ∧
      T ≤ ((announcing T listedOnly).arrive (at_ T)).now ∧
      ((((announcing T listedOnly).arrive (at_ T)).boundNumber 0).getD 0 ≠ 0 ∨ List.filterMap (fun i => if i = 0 then none else
        (((announcing T listedOnly).arrive (at_ T)).entry i).bind fun c => Option.map (fun n => (n, c.ident, c.phase.isHeld))
        c.phase.holds) (List.finRange 32) ≠ []) ∧
      ((((announcing T listedOnly).arrive (at_ T)).boundNumber 0).getD 0 ≠ 0 → 150 = (((announcing T listedOnly).arrive (at_
        T)).boundNumber 0).getD 0) ∧
      ((((announcing T listedOnly).arrive (at_ T)).boundNumber 0).getD 0 = 0 → (∃ m, m ∈ List.filterMap (fun i => if i = 0 then none else
        (((announcing T listedOnly).arrive (at_ T)).entry i).bind fun c => Option.map (fun n => (n, c.ident, c.phase.isHeld))
        c.phase.holds) (List.finRange 32) ∧ m.fst = 150) ∧ ∀ (m : Byte × Ident × Bool), m ∈ List.filterMap (fun i => if i = 0 then none
        else (((announcing T listedOnly).arrive (at_ T)).entry i).bind fun c => Option.map (fun n => (n, c.ident, c.phase.isHeld))
        c.phase.holds) (List.finRange 32) → m.fst ≠ 0 ∧ 150 ≤ m.fst)) ∧
    (calm ((announcing (T + 1) lent).arrive (at_ T)) = true ∧
      ((announcing (T + 1) lent).arrive (at_ T)).admin.device = .run ∧
      ((announcing (T + 1) lent).arrive (at_ T)).lend.announceAt = some (T + 1) ∧
      ((announcing (T + 1) lent).arrive (at_ T)).now < T + 1) := by
  refine ⟨by decide +kernel, ⟨by decide +kernel, rfl, rfl, by decide +kernel, by decide +kernel, by decide +kernel,
    fun h => absurd h (by decide +kernel)⟩, ⟨by decide +kernel, rfl, rfl, by decide +kernel, by decide +kernel,
    fun h => absurd h (by decide +kernel), fun _ => ⟨⟨((150 : Byte), (6 : Ident), true), ?_, rfl⟩, ?_⟩⟩, by decide +kernel⟩
  · rw [listedOnly_names]
    simp
  · rw [listedOnly_names]
    simp

theorem witness_UnheardPeerLeavesTheRoster :
    (calm ((rostered (peer (some (T - 300000000)) none) T).arrive (at_ T)) = true ∧
      ((rostered (peer (some (T - 300000000)) none) T).arrive (at_ T)).admin.device = .run ∧
      ((rostered (peer (some (T - 300000000)) none) T).arrive (at_ T)).peer 4 = some (peer (some (T - 300000000)) none) ∧
      (∀ (h : Time), (peer (some (T - 300000000)) none).heard.west = some h → h + 3 * ((rostered (peer (some (T - 300000000)) none)
        T).arrive (at_ T)).cfg.announcePeriod * Config.sec ≤ ((rostered (peer (some (T - 300000000)) none) T).arrive (at_ T)).now) ∧
      (∀ (h : Time), (peer (some (T - 300000000)) none).heard.east = some h → h + 3 * ((rostered (peer (some (T - 300000000)) none)
        T).arrive (at_ T)).cfg.announcePeriod * Config.sec ≤ ((rostered (peer (some (T - 300000000)) none) T).arrive (at_ T)).now)) ∧
    (calm ((rostered (peer (some (T - 299999999)) none) T).arrive (at_ T)) = true ∧
      ((rostered (peer (some (T - 299999999)) none) T).arrive (at_ T)).admin.device = .run ∧
      ((rostered (peer (some (T - 299999999)) none) T).arrive (at_ T)).peer 4 = some (peer (some (T - 299999999)) none) ∧
      ((¬∀ (h : Time), (peer (some (T - 299999999)) none).heard.west = some h → h + 3 * ((rostered (peer (some (T - 299999999)) none)
        T).arrive (at_ T)).cfg.announcePeriod * Config.sec ≤ ((rostered (peer (some (T - 299999999)) none) T).arrive (at_ T)).now) ∨ ¬∀ (h
        : Time), (peer (some (T - 299999999)) none).heard.east = some h → h + 3 * ((rostered (peer (some (T - 299999999)) none) T).arrive
        (at_ T)).cfg.announcePeriod * Config.sec ≤ ((rostered (peer (some (T - 299999999)) none) T).arrive (at_ T)).now)) ∧
    ((rostered (peer none none) T).check.bad = [] ∧
      (rostered (peer none none) T).peer 4 = some (peer none none) ∧
      (peer none none).ident = (announced peerId).junction ∧
      allPeers (rostered (peer none none) T) (fun i q => decide (4 ≤ i ∨ q.ident ≠ peerId)) = true) ∧
    (lent.check.bad = [] ∧
      lent.cfg.baseId = some (announced 275062460416).junction) ∧
    ((∀ (i : RosterNo) (q : RosterEntry), (rostered (peer none none) T).peer i = some q → q.ident ≠ (announced newPeer).junction) ∧
      (rostered (peer none none) T).peer 0 = none ∧
      (∀ (i : RosterNo), i < 0 → (rostered (peer none none) T).peer i ≠ none)) ∧
    (fullRoster.check.bad = [] ∧
      (∀ (i : RosterNo), ∃ q, fullRoster.peer i = some q ∧ q.ident ≠ (announced newPeer).junction) ∧
      fullRoster.peer 4 = some (peer (some (T - 10)) none) ∧
      allPeers fullRoster (fun i q => decide (i = 4 ∨ (peer (some (T - 10)) none).lastHeard < q.lastHeard)) = true) ∧
    (240 = 0 ∨ 240 = 255 ∨ lent.cfg.isReserved 240 = true) ∧
    (150 ≠ 0 ∧
      150 ≠ 255 ∧
      lent.cfg.isReserved 150 = false ∧
      lent.dir 150 = none) ∧
    ((holding T).check.bad = [] ∧
      140 ≠ 0 ∧
      140 ≠ 255 ∧
      (holding T).cfg.isReserved 140 = false ∧
      (holding T).dir 140 = some holder140 ∧
      holder140.side = none) ∧
    ((rostered (peer none none) T).cfg.isReserved 150 = false ∧
      (rostered (peer none none) T).dir 150 = some (DirRecord.mk (.remote .west peerId peerId) 0 0 none none) ∧
      (DirRecord.mk (.remote .west peerId peerId) 0 0 none none).holder = .remote .west peerId peerId) ∧
    ((known 150 (DirRecord.mk (.legacy .west) 0 5 none (some (T + 9))) lent).check.bad = [] ∧
      (known 150 (DirRecord.mk (.legacy .west) 0 5 none (some (T + 9))) lent).cfg.isReserved 150 = false ∧
      (known 150 (DirRecord.mk (.legacy .west) 0 5 none (some (T + 9))) lent).dir 150 = some (DirRecord.mk (.legacy .west) 0 5 none (some
        (T + 9))) ∧
      (DirRecord.mk (.legacy .west) 0 5 none (some (T + 9))).side = some .west ∧
      (DirRecord.mk (.legacy .west) 0 5 none (some (T + 9))).quarantine ≠ none) ∧
    (lent.check.bad = [] ∧
      lent.cfg.baseId ≠ some (announced newPeer).junction) ∧
    ((known 160 (legacy .west) lent).check.bad = [] ∧
      (160 : Byte) ≠ 0 ∧
      (160 : Byte) ≠ 255 ∧
      (known 160 (legacy .west) lent).cfg.isReserved 160 = false ∧
      (known 160 (legacy .west) lent).dir 160 = some (legacy .west) ∧
      (legacy .west).quarantine = none ∧
      (legacy .west).holder = .legacy .west) ∧
    ((known 160 (legacy .east) lent).check.bad = [] ∧
      (160 : Byte) ≠ 0 ∧
      (160 : Byte) ≠ 255 ∧
      (known 160 (legacy .east) lent).cfg.isReserved 160 = false ∧
      (known 160 (legacy .east) lent).dir 160 = some (legacy .east) ∧
      (legacy .east).quarantine = none ∧
      (legacy .east).holder = .legacy (otherSide .west)) ∧
    ((known 160 (remoteAt .east 3 (some (T - 5))) lent).check.bad = [] ∧
      (160 : Byte) ≠ 0 ∧
      (160 : Byte) ≠ 255 ∧
      (known 160 (remoteAt .east 3 (some (T - 5))) lent).cfg.isReserved 160 = false ∧
      (known 160 (remoteAt .east 3 (some (T - 5))) lent).dir 160 = some (remoteAt .east 3 (some (T - 5))) ∧
      (remoteAt .east 3 (some (T - 5))).quarantine = none ∧
      (remoteAt .east 3 (some (T - 5))).holder = .remote (otherSide .west) nodeB peerId ∧
      (countMove (known 160 (remoteAt .east 3 (some (T - 5))) lent).cfg (known 160 (remoteAt .east 3 (some (T - 5))) lent).now { (remoteAt
        .east 3 (some (T - 5))) with holder := .remote .west nodeA peerId, lastHeard := (known 160 (remoteAt .east 3 (some (T - 5)))
        lent).now }).quarantine = none) ∧
    ((known 160 (remoteAt .east 4 (some (T - 5))) lent).check.bad = [] ∧
      (160 : Byte) ≠ 0 ∧
      (160 : Byte) ≠ 255 ∧
      (known 160 (remoteAt .east 4 (some (T - 5))) lent).cfg.isReserved 160 = false ∧
      (known 160 (remoteAt .east 4 (some (T - 5))) lent).dir 160 = some (remoteAt .east 4 (some (T - 5))) ∧
      (remoteAt .east 4 (some (T - 5))).quarantine = none ∧
      (remoteAt .east 4 (some (T - 5))).holder = .remote (otherSide .west) nodeB peerId ∧
      (countMove (known 160 (remoteAt .east 4 (some (T - 5))) lent).cfg (known 160 (remoteAt .east 4 (some (T - 5))) lent).now { (remoteAt
        .east 4 (some (T - 5))) with holder := .remote .west nodeA peerId, lastHeard := (known 160 (remoteAt .east 4 (some (T - 5)))
        lent).now }).quarantine ≠ none) ∧
    (peerKnown.check.bad = [] ∧
      (170 : Byte) ∉ namedBy (announced peerId) ∧
      peerKnown.dir 170 = some (remoteAt .east 0 none) ∧
      (remoteAt .east 0 none).holder = .remote .east nodeB peerId ∧
      allRecords (afterWrites peerKnown (announced peerId) .west) (fun n r => decide (n = 170 ∨ n ∈ namedBy (announced peerId) ∨ r.ownedBy
        peerId = false)) = true ∧
      allRecords (afterWrites peerKnown (announcedBoth peerId) .west) (fun n r => decide (n ∈ namedBy (announcedBoth peerId) ∨ r.ownedBy
        peerId = false)) = true) ∧
    (peerKnown.check.bad = [] ∧
      peerKnown.dir (LendPayload.mk 170 nodeB none).number = some (remoteAt .east 0 none) ∧
      (remoteAt .east 0 none).holder = .remote .east (LendPayload.mk 170 nodeB none).client peerId ∧
      allRecords peerKnown (fun n r => decide (n ≠ 170 ∨ r.ident ≠ some nodeA)) = true) := by
  refine ⟨?_, ?_, ?_, ?_, ?_, ?_, ?_, ?_, ?_, ?_, ?_, ?_, ?_, ?_, ?_, ?_, ?_, ?_⟩ <;> decide +kernel

theorem witness_OpenedJobTakesSlotAndNumber :
    (lent.check.bad = [] ∧
      lent.pool.recovering = false ∧
      lent.entry 1 = some printerEntry ∧
      printerEntry.phase = .bound 132 ∧
      lent.spool.outbox = [] ∧
      lent.spool.printer = PrinterState.absent) ∧
    (ready.check.bad = [] ∧
      ready.pool.recovering = false ∧
      ready.entry 1 = some printerEntry ∧
      ready.spool.outbox = [] ∧
      ready.spool.printer ≠ PrinterState.absent ∧
      ready.cfg.spoolCap < (openRequest 129).size) ∧
    ((spoolHeld 96 ready).check.bad = [] ∧
      (spoolHeld 96 ready).pool.recovering = false ∧
      (spoolHeld 96 ready).entry 1 = some printerEntry ∧
      (spoolHeld 96 ready).spool.outbox = [] ∧
      (spoolHeld 96 ready).spool.printer ≠ PrinterState.absent ∧
      (openRequest 128).size ≤ (spoolHeld 96 ready).cfg.spoolCap ∧
      (spoolHeld 96 ready).job 0 = none ∧
      (∀ (i : Slot), i < 0 → (spoolHeld 96 ready).job i ≠ none) ∧
      ¬0 ∈ (spoolHeld 96 ready).spool.order ∧
      (spoolHeld 96 ready).receivers = [] ∧
      (∀ (i : Slot) (j : Job), (spoolHeld 96 ready).job i = some j → j.number ≠ (spoolHeld 96 ready).spool.jobCounter) ∧
      32 ≤ (spoolHeld 96 ready).cfg.spoolCap - (spoolHeld 96 ready).pool.spoolHeld ∧
      (spoolHeld 96 ready).cfg.spoolCap / 4 ≤ (spoolHeld 96 ready).cfg.spoolCap - (spoolHeld 96 ready).pool.spoolHeld) ∧
    ((spoolHeld 128 carrying).check.bad = [] ∧
      (spoolHeld 128 carrying).pool.recovering = false ∧
      (spoolHeld 128 carrying).cfg.spoolCap < (spoolHeld 128 carrying).pool.spoolHeld + inBlock0.count) ∧
    ((spoolHeld 127 (offering (receivingJob 8))).check.bad = [] ∧
      (spoolHeld 127 (offering (receivingJob 8))).pool.recovering = false ∧
      (spoolHeld 127 (offering (receivingJob 8))).pool.spoolHeld + dataChain.count ≤ (spoolHeld 127 (offering (receivingJob
        8))).cfg.spoolCap ∧
      linked ((spoolHeld 127 (offering (receivingJob 8))).pool) (.side .west) ((spoolHeld 127 (offering (receivingJob 8))).blocksOf
        dataChain.first) = true ∧
      ((spoolHeld 127 (offering (receivingJob 8))).blocksOf dataChain.first).Nodup ∧
      (∀ (l : BlockNo), some 0 = some l → ¬l ∈ (spoolHeld 127 (offering (receivingJob 8))).blocksOf dataChain.first)) ∧
    ((offering (receivingJob 8)).check.bad = [] ∧
      (offering (receivingJob 8)).pool.recovering = false) ∧
    (8 = 0 ∨ ∀ (k : Slot) (j : Job), (offering (receivingJob 8)).job k = some j → j.number ≠ 8) ∧
    (8 ≠ 0 ∧
      (∀ (k : Slot) (j : Job), (offering (receivingJob 8)).job k = some j → j.number ≠ 8)) ∧
    (some 24 = some 24 ∧
      7 ≠ 0 ∧
      (offering (receivingJob 8)).job 4 = some (receivingJob 8) ∧
      (receivingJob 8).number = 7 ∧
      (∀ (h : Slot) (jh : Job), (offering (receivingJob 8)).job h = some jh → jh.number = 7 → h = 4) ∧
      (receivingJob 8).originator ≠ some 24) ∧
    ((offering (printingJob 0)).check.bad = [] ∧
      (offering (printingJob 0)).pool.recovering = false ∧
      (offering (printingJob 0)).job 4 = some (printingJob 0) ∧
      (printingJob 0).number = 7 ∧
      (∀ (h : Slot) (jh : Job), (offering (printingJob 0)).job h = some jh → jh.number = 7 → h = 4) ∧
      (printingJob 0).originator = some 23 ∧
      (printingJob 0).state ≠ .receiving) ∧
    ((receivingJob 8).originator = some 23 ∧
      (receivingJob 8).state = .receiving ∧
      0 < (receivingJob 8).nextIndex) ∧
    ((receivingJob 8).nextIndex < 2 ∨ 2 = (receivingJob 8).nextIndex ∧ (receivingJob 8).window = 0) ∧
    ((spoolHeld 128 (offering (receivingJob 1))).check.bad = [] ∧
      (spoolHeld 128 (offering (receivingJob 1))).pool.recovering = false ∧
      (spoolHeld 128 (offering (receivingJob 1))).job 4 = some (receivingJob 1) ∧
      (receivingJob 1).number = 7 ∧
      (∀ (h : Slot) (jh : Job), (spoolHeld 128 (offering (receivingJob 1))).job h = some jh → jh.number = 7 → h = 4) ∧
      (receivingJob 1).originator = some 23 ∧
      (receivingJob 1).state = .receiving ∧
      1 = (receivingJob 1).nextIndex ∧
      0 < (receivingJob 1).window ∧
      (spoolHeld 128 (offering (receivingJob 1))).cfg.spoolCap < (spoolHeld 128 (offering (receivingJob 1))).pool.spoolHeld +
        dataChain.count) ∧
    (atCap.check.bad = [] ∧
      atCap.pool.recovering = false ∧
      atCap.job 4 = some (receivingJob 8) ∧
      (∀ (h : Slot) (jh : Job), atCap.job h = some jh → jh.number = 7 → h = 4) ∧
      1 = (receivingJob 8).nextIndex ∧
      0 < (receivingJob 8).window ∧
      atCap.receivers = [4] ∧
      atCap.reclassify dataChain 4 (some 0) = ({ atCap with pool := reclassified atCap (receivingJob 8) }, true) ∧
      4 ≤ atCap.cfg.spoolCap - (reclassified atCap (receivingJob 8)).spoolHeld) ∧
    2 ≠ (receivingJob 8).nextIndex ∧
    ((offering (receivingJob 8)).receivers = [4] ∧
      ¬4 ∈ (offering (receivingJob 8)).spool.order) ∧
    (allEntries (ent 1 { printerEntry with phase := .unbound } ready) (fun i c => decide (i ≠ 1 ∨ c.phase.boundNumber = none)) = true) ∧
    ((everySlot unfinishedIn).check.bad = [] ∧
      (everySlot unfinishedIn).pool.recovering = false ∧
      (everySlot unfinishedIn).entry 1 = some printerEntry ∧
      printerEntry.phase = .bound 132 ∧
      (everySlot unfinishedIn).spool.outbox = [] ∧
      (everySlot unfinishedIn).spool.printer ≠ .absent ∧
      (openRequest 4).size ≤ (everySlot unfinishedIn).cfg.spoolCap ∧
      (∀ i : Slot, (everySlot unfinishedIn).job i = some (unfinishedIn i) ∧ (unfinishedIn i).isFinished = false)) ∧
    ((everySlot finishedIn).check.bad = [] ∧
      (everySlot finishedIn).pool.recovering = false ∧
      (everySlot finishedIn).entry 1 = some printerEntry ∧
      printerEntry.phase = .bound 132 ∧
      (everySlot finishedIn).spool.outbox = [] ∧
      (everySlot finishedIn).spool.printer ≠ .absent ∧
      (openRequest 4).size ≤ (everySlot finishedIn).cfg.spoolCap ∧
      (∀ i : Slot, (everySlot finishedIn).job i ≠ none) ∧
      (everySlot finishedIn).job 3 = some (finishedIn 3) ∧
      (finishedIn 3).isFinished = true ∧
      (finishedIn 3).finished = some (T - 90) ∧
      allJobs (everySlot finishedIn) (fun i q => decide (i = 3 ∨ ∀ g ∈ q.finished, T - 90 < g ∨ (T - 90 = g ∧ (3 : Slot) < i))) = true ∧
      (3 : Slot) ∉ (everySlot finishedIn).spool.order ∧
      (everySlot finishedIn).receivers = [] ∧
      allJobs (everySlot finishedIn) (fun _ j => decide (j.number ≠ (everySlot finishedIn).spool.jobCounter)) = true ∧
      32 ≤ (everySlot finishedIn).cfg.spoolCap - (everySlot finishedIn).pool.spoolHeld ∧
      (everySlot finishedIn).cfg.spoolCap / 4 ≤ (everySlot finishedIn).cfg.spoolCap - (everySlot finishedIn).pool.spoolHeld) := by
  refine ⟨?_, ?_, ?_, ?_, ?_, ?_, ?_, ?_, ?_, ?_, ?_, ?_, ?_, ?_, ?_, ?_, ?_, ?_, ?_⟩ <;> decide +kernel

theorem witness_ReceiveWindowsFollowTheRoom :
    ((spoolHeld 110 twoReceive).check.bad = [] ∧
      (spoolHeld 110 twoReceive).job 3 = some (opened 5)) ∧
    tied.oldestReceiver = some 1 ∧
    tied.youngestReceiver = some 3 ∧
    ((spoolHeld 125 (chained (receivingJob 8))).check.bad = [] ∧
      (spoolHeld 125 (chained (receivingJob 8))).pool.recovering = false ∧
      (spoolHeld 125 (chained (receivingJob 8))).job 4 = some (receivingJob 8) ∧
      (receivingJob 8).state = .receiving ∧
      (spoolHeld 125 (chained (receivingJob 8))).cfg.spoolCap - (spoolHeld 125 (chained (receivingJob 8))).pool.spoolHeld < (spoolHeld 125
        (chained (receivingJob 8))).cfg.spoolCap / 4 ∧
      (spoolHeld 125 (chained (receivingJob 8))).cfg.spoolCap - (spoolHeld 125 (chained (receivingJob 8))).pool.spoolHeld < 4 ∧
      (spoolHeld 125 (chained (receivingJob 8))).spool.order = [] ∧
      (spoolHeld 125 (chained (receivingJob 8))).receivers = [4]) ∧
    (twoTight.check.bad = [] ∧
      twoTight.pool.recovering = false ∧
      twoTight.job 4 = some (receivingJob 8) ∧
      twoTight.cfg.spoolCap - twoTight.pool.spoolHeld < twoTight.cfg.spoolCap / 4 ∧
      twoTight.cfg.spoolCap - twoTight.pool.spoolHeld < 4 ∧
      twoTight.spool.order = [] ∧
      List.filter (fun x => x != 4) twoTight.receivers = [1] ∧
      twoTight.youngestReceiver = some 4 ∧
      twoTight.job 1 = some windowless ∧
      4 ≤ twoTight.cfg.spoolCap - (twoTight.releaseFrom 0).pool.spoolHeld) := by
  refine ⟨?_, ?_, ?_, ?_, ?_⟩ <;> decide +kernel

theorem witness_JobsEndByCancelIdlenessAndTime :
    (calm ((asked asksCancel ready).arrive (at_ T)) = true ∧
      ((asked asksCancel ready).arrive (at_ T)).admin.device = .run ∧
      ((asked asksCancel ready).arrive (at_ T)).admin.inbox = [asksCancel] ∧
      asksCancel.op = 3 ∧
      asksCancel.command = 4 ∧
      asksCancel.argument ≠ 0 ∧
      (served ((asked asksCancel ready).arrive (at_ T)) asksCancel).isAdmin asksCancel.requester = true ∧
      (served ((asked asksCancel ready).arrive (at_ T)) asksCancel).slotOf asksCancel.argument = none) ∧
    (calm ((asked asksCancel (slot 4 (finishedJob 5) ready)).arrive (at_ T)) = true ∧
      ((asked asksCancel (slot 4 (finishedJob 5) ready)).arrive (at_ T)).admin.device = .run ∧
      ((asked asksCancel (slot 4 (finishedJob 5) ready)).arrive (at_ T)).admin.inbox = [asksCancel] ∧
      (served ((asked asksCancel (slot 4 (finishedJob 5) ready)).arrive (at_ T)) asksCancel).isAdmin asksCancel.requester = true ∧
      (served ((asked asksCancel (slot 4 (finishedJob 5) ready)).arrive (at_ T)) asksCancel).slotOf asksCancel.argument = some 4 ∧
      (served ((asked asksCancel (slot 4 (finishedJob 5) ready)).arrive (at_ T)) asksCancel).job 4 = some (finishedJob 5) ∧
      (finishedJob 5).isFinished = true) ∧
    (calm ((asked asksCancel (slot 4 orphanReady ready)).arrive (at_ T)) = true ∧
      ((asked asksCancel (slot 4 orphanReady ready)).arrive (at_ T)).admin.device = .run ∧
      ((asked asksCancel (slot 4 orphanReady ready)).arrive (at_ T)).admin.inbox = [asksCancel] ∧
      (served ((asked asksCancel (slot 4 orphanReady ready)).arrive (at_ T)) asksCancel).isAdmin asksCancel.requester = true ∧
      (served ((asked asksCancel (slot 4 orphanReady ready)).arrive (at_ T)) asksCancel).slotOf asksCancel.argument = some 4 ∧
      (served ((asked asksCancel (slot 4 orphanReady ready)).arrive (at_ T)) asksCancel).job 4 = some orphanReady ∧
      (orphanReady.state = .receiving ∨ orphanReady.state = .ready) ∧
      orphanReady.chain = none ∧
      orphanReady.originator = none ∧
      List.filter (fun x => x != 4) (served ((asked asksCancel (slot 4 orphanReady ready)).arrive (at_ T)) asksCancel).receivers = []) ∧
    (calm ((chained (quietJob 600000000)).arrive (at_ T)) = true ∧
      ((chained (quietJob 600000000)).arrive (at_ T)).admin.device = .run ∧
      ((chained (quietJob 600000000)).arrive (at_ T)).job 4 = some (quietJob 600000000) ∧
      (quietJob 600000000).state = .receiving ∧
      (quietJob 600000000).lastActivity + ((chained (quietJob 600000000)).arrive (at_ T)).cfg.jobIdle * Config.sec ≤ ((chained (quietJob
        600000000)).arrive (at_ T)).now ∧
      ¬4 ∈ ((chained (quietJob 600000000)).arrive (at_ T)).spool.order ∧
      ((chained (quietJob 600000000)).arrive (at_ T)).receivers = [4]) ∧
    (calm ((chained (quietJob 599999999)).arrive (at_ T)) = true ∧
      ((chained (quietJob 599999999)).arrive (at_ T)).admin.device = .run ∧
      ((chained (quietJob 599999999)).arrive (at_ T)).job 4 = some (quietJob 599999999) ∧
      ((quietJob 599999999).state ≠ .receiving ∨ ((chained (quietJob 599999999)).arrive (at_ T)).now < (quietJob 599999999).lastActivity +
        ((chained (quietJob 599999999)).arrive (at_ T)).cfg.jobIdle * Config.sec)) ∧
    (calm ((slot 4 (finishedJob 300000000) ready).arrive (at_ T)) = true ∧
      ((slot 4 (finishedJob 300000000) ready).arrive (at_ T)).admin.device = .run ∧
      ((slot 4 (finishedJob 300000000) ready).arrive (at_ T)).job 4 = some (finishedJob 300000000) ∧
      (finishedJob 300000000).isFinished = true ∧
      (finishedJob 300000000).finished = some (T - 300000000) ∧
      T - 300000000 + 30 * Config.sec ≤ ((slot 4 (finishedJob 300000000) ready).arrive (at_ T)).now) ∧
    (calm ((slot 4 (finishedJob 299999999) ready).arrive (at_ T)) = true ∧
      ((slot 4 (finishedJob 299999999) ready).arrive (at_ T)).admin.device = .run ∧
      ((slot 4 (finishedJob 299999999) ready).arrive (at_ T)).job 4 = some (finishedJob 299999999) ∧
      (finishedJob 299999999).finished = some (T - 299999999) ∧
      ((slot 4 (finishedJob 299999999) ready).arrive (at_ T)).now < T - 299999999 + 30 * Config.sec) ∧
    (ready.check.bad = [] ∧
      ready.pool.recovering = false) ∧
    (7 = 0 ∨ ∀ (k : Slot) (j : Job), ready.job k = some j → j.number ≠ 7) ∧
    ((slot 4 (finishedJob 5) ready).check.bad = [] ∧
      (slot 4 (finishedJob 5) ready).pool.recovering = false ∧
      7 ≠ 0 ∧
      (slot 4 (finishedJob 5) ready).job 4 = some (finishedJob 5) ∧
      (finishedJob 5).number = 7 ∧
      (∀ (h : Slot) (jh : Job), (slot 4 (finishedJob 5) ready).job h = some jh → jh.number = 7 → h = 4) ∧
      ((finishedJob 5).originator ≠ some 23 ∨ (finishedJob 5).isFinished = true)) ∧
    ((ordered (printingJob 1)).check.bad = [] ∧
      (ordered (printingJob 1)).pool.recovering = false ∧
      (ordered (printingJob 1)).job 4 = some (printingJob 1) ∧
      (printingJob 1).number = 7 ∧
      (∀ (h : Slot) (jh : Job), (ordered (printingJob 1)).job h = some jh → jh.number = 7 → h = 4) ∧
      (printingJob 1).originator = some 23 ∧
      (printingJob 1).isFinished = false ∧
      List.filter (fun x => x != 4) (ordered (printingJob 1)).receivers = []) ∧
    (lostReceiving.check.bad = [] ∧
      lostReceiving.pool.recovering = false ∧
      allJobs lostReceiving (fun _ j => decide (j.originator ≠ some 24)) = true ∧
      lostReceiving.job 4 = some (receivingJob 8) ∧
      (receivingJob 8).originator = some 23 ∧
      (receivingJob 8).isFinished = false ∧
      (receivingJob 8).state = .receiving ∧
      lostReceiving.receivers = [4] ∧
      allJobs lostReceiving (fun h q => decide (h = 4 ∨ q.originator ≠ some 23)) = true ∧
      lostReceiving.job 0 = none) ∧
    (lostReady.check.bad = [] ∧
      lostReady.pool.recovering = false ∧
      lostReady.job 4 = some (printingJob 1) ∧
      (printingJob 1).originator = some 23 ∧
      (printingJob 1).isFinished = false ∧
      allJobs lostReady (fun _ j => decide (j.state ≠ .receiving)) = true) := by
  refine ⟨?_, ?_, ?_, ?_, ?_, ?_, ?_, ?_, ?_, ?_, ?_, ?_, ?_⟩ <;> decide +kernel

theorem witness_PrinterLinesAndInitSetTheState :
    (calm (ready.arrive (at_ T)) = true ∧
      (ready.arrive (at_ T)).admin.device = .run ∧
      (ready.arrive (at_ T)).cfg.printEnable ≠ 0 ∧
      (ready.arrive (at_ T)).spool.linesTaken = true ∧
      (ready.arrive (at_ T)).spool.order = []) ∧
    (calm ((ordered (printingJob 0)).arrive (at_ T)) = true ∧
      ((ordered (printingJob 0)).arrive (at_ T)).admin.device = .run ∧
      ((ordered (printingJob 0)).arrive (at_ T)).cfg.printEnable ≠ 0 ∧
      ((ordered (printingJob 0)).arrive (at_ T)).spool.linesTaken = true ∧
      ((ordered (printingJob 0)).arrive (at_ T)).spool.order = [4] ∧
      ((ordered (printingJob 0)).arrive (at_ T)).job 4 = some (printingJob 0) ∧
      (printingJob 0).state = .printing ∧
      ((ordered (printingJob 0)).arrive (at_ T)).spool.stall = false ∧
      (printerStateOf (((ordered (printingJob 0)).arrive (at_ T)).spool.absentMark && !(PrinterLines.mk true true true true true).select
        && (PrinterLines.mk true true true true true).busy) ((ordered (printingJob 0)).arrive (at_ T)).spool.stall (PrinterLines.mk true
        true true true true) = PrinterState.offline ∧ Reason.paperOut = Reason.offline ∨ printerStateOf (((ordered (printingJob 0)).arrive
        (at_ T)).spool.absentMark && !(PrinterLines.mk true true true true true).select && (PrinterLines.mk true true true true
        true).busy) ((ordered (printingJob 0)).arrive (at_ T)).spool.stall (PrinterLines.mk true true true true true) =
        PrinterState.paperOut ∧ Reason.paperOut = Reason.paperOut ∨ printerStateOf (((ordered (printingJob 0)).arrive (at_
        T)).spool.absentMark && !(PrinterLines.mk true true true true true).select && (PrinterLines.mk true true true true true).busy)
        ((ordered (printingJob 0)).arrive (at_ T)).spool.stall (PrinterLines.mk true true true true true) = PrinterState.fault ∧
        Reason.paperOut = Reason.fault)) ∧
    ((printingJob 0).state = .printing ∧ (printerStateOf (((ordered (printingJob 0)).arrive (at_ T)).spool.absentMark && !busyLines.select
      && busyLines.busy) ((ordered (printingJob 0)).arrive (at_ T)).spool.stall busyLines = PrinterState.ready ∨ printerStateOf (((ordered
      (printingJob 0)).arrive (at_ T)).spool.absentMark && !busyLines.select && busyLines.busy) ((ordered (printingJob 0)).arrive (at_
      T)).spool.stall busyLines = PrinterState.busy) ∨ (printingJob 0).state = .held ∧ printerStateOf (((ordered (printingJob 0)).arrive
      (at_ T)).spool.absentMark && !busyLines.select && busyLines.busy) ((ordered (printingJob 0)).arrive (at_ T)).spool.stall busyLines ≠
      PrinterState.ready) ∧
    (calm ((ordered (heldJob (printingJob 0))).arrive (at_ T)) = true ∧
      ((ordered (heldJob (printingJob 0))).arrive (at_ T)).admin.device = .run ∧
      ((ordered (heldJob (printingJob 0))).arrive (at_ T)).cfg.printEnable ≠ 0 ∧
      ((ordered (heldJob (printingJob 0))).arrive (at_ T)).spool.linesTaken = true ∧
      ((ordered (heldJob (printingJob 0))).arrive (at_ T)).spool.order = [4] ∧
      ((ordered (heldJob (printingJob 0))).arrive (at_ T)).job 4 = some (heldJob (printingJob 0)) ∧
      ((heldJob (printingJob 0)).state = .printing ∧ (printerStateOf (((ordered (heldJob (printingJob 0))).arrive (at_
        T)).spool.absentMark && !busyLines.select && busyLines.busy) ((ordered (heldJob (printingJob 0))).arrive (at_ T)).spool.stall
        busyLines = PrinterState.ready ∨ printerStateOf (((ordered (heldJob (printingJob 0))).arrive (at_ T)).spool.absentMark &&
        !busyLines.select && busyLines.busy) ((ordered (heldJob (printingJob 0))).arrive (at_ T)).spool.stall busyLines =
        PrinterState.busy) ∨ (heldJob (printingJob 0)).state = .held ∧ printerStateOf (((ordered (heldJob (printingJob 0))).arrive (at_
        T)).spool.absentMark && !busyLines.select && busyLines.busy) ((ordered (heldJob (printingJob 0))).arrive (at_ T)).spool.stall
        busyLines ≠ PrinterState.ready)) ∧
    ((heldJob (printingJob 0)).state = .held ∧
      printerStateOf (((ordered (heldJob (printingJob 0))).arrive (at_ T)).spool.absentMark && !(PrinterLines.mk false false false true
        true).select && (PrinterLines.mk false false false true true).busy) ((ordered (heldJob (printingJob 0))).arrive (at_
        T)).spool.stall (PrinterLines.mk false false false true true) = PrinterState.ready) ∧
    (calm ((pulsed 1000).arrive (at_ T)) = true ∧
      ((pulsed 1000).arrive (at_ T)).admin.device = .run ∧
      ((pulsed 1000).arrive (at_ T)).cfg.printEnable ≠ 0 ∧
      ((pulsed 1000).arrive (at_ T)).spool.order = [] ∧
      ((pulsed 1000).arrive (at_ T)).spool.initPulse = some (T - 1000) ∧
      ((pulsed 1000).arrive (at_ T)).spool.initPending = false ∧
      T - 1000 + 100 * Config.us ≤ ((pulsed 1000).arrive (at_ T)).now) ∧
    (calm ((pulsed 999).arrive (at_ T)) = true ∧
      ((pulsed 999).arrive (at_ T)).admin.device = .run ∧
      ((pulsed 999).arrive (at_ T)).cfg.printEnable ≠ 0 ∧
      ((pulsed 999).arrive (at_ T)).spool.order = [] ∧
      ((pulsed 999).arrive (at_ T)).spool.initPulse = some (T - 999) ∧
      ((pulsed 999).arrive (at_ T)).now < T - 999 + 100 * Config.us) ∧
    (calm ((watched T true).arrive (at_ T)) = true ∧
      ((watched T true).arrive (at_ T)).admin.device = .run ∧
      ((watched T true).arrive (at_ T)).cfg.printEnable ≠ 0 ∧
      ((watched T true).arrive (at_ T)).spool.order = [] ∧
      ((watched T true).arrive (at_ T)).spool.absentWatch = some (T, true) ∧
      ((watched T true).arrive (at_ T)).spool.linesTaken = true ∧
      T ≤ ((watched T true).arrive (at_ T)).now) ∧
    (calm ((watched (T + 1) true).arrive (at_ T)) = true ∧
      ((watched (T + 1) true).arrive (at_ T)).admin.device = .run ∧
      ((watched (T + 1) true).arrive (at_ T)).cfg.printEnable ≠ 0 ∧
      ((watched (T + 1) true).arrive (at_ T)).spool.order = [] ∧
      ((watched (T + 1) true).arrive (at_ T)).spool.absentWatch = some (T + 1, true) ∧
      ((watched (T + 1) true).arrive (at_ T)).now < T + 1) := by
  refine ⟨?_, ?_, ?_, ?_, ?_, ?_, ?_, ?_, ?_⟩ <;> decide +kernel

theorem witness_HeadJobPrintsItsBytesInOrder :
    (calm ((ordered readyJob).arrive (at_ T)) = true ∧
      ((ordered readyJob).arrive (at_ T)).admin.device = .run ∧
      ((ordered readyJob).arrive (at_ T)).spool.order = [4] ∧
      ((ordered readyJob).arrive (at_ T)).job 4 = some readyJob ∧
      (readyJob.state = .ready ∧ ((ordered readyJob).arrive (at_ T)).spool.printer = PrinterState.ready ∧ ((ordered readyJob).arrive (at_
        T)).spool.initPending = false ∧ ((ordered readyJob).arrive (at_ T)).spool.initPulse = none) ∧
      0 < ((ordered readyJob).arrive (at_ T)).jobLength readyJob) ∧
    (calm ((ordered (printingJob 0)).arrive (at_ T)) = true ∧
      ((ordered (printingJob 0)).arrive (at_ T)).admin.device = .run ∧
      ((ordered (printingJob 0)).arrive (at_ T)).spool.order = [4] ∧
      ((ordered (printingJob 0)).arrive (at_ T)).job 4 = some (printingJob 0) ∧
      ¬((printingJob 0).state = .ready ∧ ((ordered (printingJob 0)).arrive (at_ T)).spool.printer = PrinterState.ready ∧ ((ordered
        (printingJob 0)).arrive (at_ T)).spool.initPending = false ∧ ((ordered (printingJob 0)).arrive (at_ T)).spool.initPulse = none)) ∧
    (calm ((separatorNext (ordered (printingJob 2))).arrive (at_ T)) = true ∧
      ((separatorNext (ordered (printingJob 2))).arrive (at_ T)).admin.device = .run ∧
      ((separatorNext (ordered (printingJob 2))).arrive (at_ T)).spool.order = [4] ∧
      ((separatorNext (ordered (printingJob 2))).arrive (at_ T)).job 4 = some (printingJob 2) ∧
      (printingJob 2).state = .printing ∧
      (printingJob 2).chain = some chain0 ∧
      (((separatorNext (ordered (printingJob 2))).arrive (at_ T)).spool.inHand = none ∧ ((separatorNext (ordered (printingJob 2))).arrive
        (at_ T)).spool.printer = PrinterState.ready ∧ ((separatorNext (ordered (printingJob 2))).arrive (at_ T)).spool.initPending = false
        ∧ ((separatorNext (ordered (printingJob 2))).arrive (at_ T)).spool.initPulse = none) ∧
      ((separatorNext (ordered (printingJob 2))).arrive (at_ T)).spool.separatorDue = true) ∧
    (calm ((ordered (printingJob 1)).arrive (at_ T)) = true ∧
      ((ordered (printingJob 1)).arrive (at_ T)).admin.device = .run ∧
      ((ordered (printingJob 1)).arrive (at_ T)).spool.order = [4] ∧
      ((ordered (printingJob 1)).arrive (at_ T)).job 4 = some (printingJob 1) ∧
      (printingJob 1).state = .printing ∧
      (printingJob 1).chain = some chain0 ∧
      (((ordered (printingJob 1)).arrive (at_ T)).spool.inHand = none ∧ ((ordered (printingJob 1)).arrive (at_ T)).spool.printer =
        PrinterState.ready ∧ ((ordered (printingJob 1)).arrive (at_ T)).spool.initPending = false ∧ ((ordered (printingJob 1)).arrive (at_
        T)).spool.initPulse = none) ∧
      ((ordered (printingJob 1)).arrive (at_ T)).spool.separatorDue = false ∧
      (List.flatMap (fun f => List.drop 3 (((ordered (printingJob 1)).arrive (at_ T)).storedPayload f.fst f.snd)) (((ordered (printingJob
        1)).arrive (at_ T)).jobFrames (printingJob 1)))[(printingJob 1).printed]? = some 66) ∧
    (calm ((handed 65 (T + 4) (ordered (printingJob 0))).arrive (at_ T)) = true ∧
      ((handed 65 (T + 4) (ordered (printingJob 0))).arrive (at_ T)).admin.device = .run ∧
      ((handed 65 (T + 4) (ordered (printingJob 0))).arrive (at_ T)).spool.order = [4] ∧
      ((handed 65 (T + 4) (ordered (printingJob 0))).arrive (at_ T)).job 4 = some (printingJob 0) ∧
      (printingJob 0).state = .printing ∧
      (printingJob 0).chain = some chain0 ∧
      ¬(((handed 65 (T + 4) (ordered (printingJob 0))).arrive (at_ T)).spool.inHand = none ∧ ((handed 65 (T + 4) (ordered (printingJob
        0))).arrive (at_ T)).spool.printer = PrinterState.ready ∧ ((handed 65 (T + 4) (ordered (printingJob 0))).arrive (at_
        T)).spool.initPending = false ∧ ((handed 65 (T + 4) (ordered (printingJob 0))).arrive (at_ T)).spool.initPulse = none)) := by
  refine ⟨?_, ?_, ?_, ?_, ?_⟩ <;> decide +kernel

theorem witness_TakenBytesAdvanceTheJob :
    (calm (ready.arrive (at_ T)) = true ∧
      (ready.arrive (at_ T)).admin.device = .run ∧
      (ready.arrive (at_ T)).spool.inHand = none) ∧
    (calm ((handed 65 (T + 4) (ordered (printingJob 0))).arrive (at_ T)) = true ∧
      ((handed 65 (T + 4) (ordered (printingJob 0))).arrive (at_ T)).admin.device = .run ∧
      ((handed 65 (T + 4) (ordered (printingJob 0))).arrive (at_ T)).cfg.printEnable ≠ 0 ∧
      ((handed 65 (T + 4) (ordered (printingJob 0))).arrive (at_ T)).spool.linesTaken = true ∧
      ((handed 65 (T + 4) (ordered (printingJob 0))).arrive (at_ T)).spool.initPending = false ∧
      ((handed 65 (T + 4) (ordered (printingJob 0))).arrive (at_ T)).spool.order = [4] ∧
      ((handed 65 (T + 4) (ordered (printingJob 0))).arrive (at_ T)).job 4 = some (printingJob 0) ∧
      ((handed 65 (T + 4) (ordered (printingJob 0))).arrive (at_ T)).spool.inHand = some (InHand.mk 65 false (some 4)) ∧
      ((printingJob 0).state = .printing ∧ (printerStateOf ((handed 65 (T + 4) (ordered (printingJob 0))).arrive (at_ T)).spool.absentMark
        false ((handed 65 (T + 4) (ordered (printingJob 0))).arrive (at_ T)).pins.printer = PrinterState.ready ∨ printerStateOf ((handed
        65 (T + 4) (ordered (printingJob 0))).arrive (at_ T)).spool.absentMark false ((handed 65 (T + 4) (ordered (printingJob 0))).arrive
        (at_ T)).pins.printer = PrinterState.busy) ∨ (printingJob 0).state = .held) ∧
      (false = false ∧ ((printingJob 0).printed + 1 < ((handed 65 (T + 4) (ordered (printingJob 0))).arrive (at_ T)).jobLength
        (printingJob 0) ∨ (printingJob 0).separator = true ∧ 65 ≠ 12))) ∧
    (calm ((handed 66 (T + 4) (ordered separated)).arrive (at_ T)) = true ∧
      ((handed 66 (T + 4) (ordered separated)).arrive (at_ T)).admin.device = .run ∧
      ((handed 66 (T + 4) (ordered separated)).arrive (at_ T)).cfg.printEnable ≠ 0 ∧
      ((handed 66 (T + 4) (ordered separated)).arrive (at_ T)).spool.linesTaken = true ∧
      ((handed 66 (T + 4) (ordered separated)).arrive (at_ T)).spool.initPending = false ∧
      ((handed 66 (T + 4) (ordered separated)).arrive (at_ T)).spool.order = [4] ∧
      ((handed 66 (T + 4) (ordered separated)).arrive (at_ T)).job 4 = some separated ∧
      ((handed 66 (T + 4) (ordered separated)).arrive (at_ T)).spool.inHand = some (InHand.mk 66 false (some 4)) ∧
      (separated.state = .printing ∧ (printerStateOf ((handed 66 (T + 4) (ordered separated)).arrive (at_ T)).spool.absentMark false
        ((handed 66 (T + 4) (ordered separated)).arrive (at_ T)).pins.printer = PrinterState.ready ∨ printerStateOf ((handed 66 (T + 4)
        (ordered separated)).arrive (at_ T)).spool.absentMark false ((handed 66 (T + 4) (ordered separated)).arrive (at_ T)).pins.printer
        = PrinterState.busy) ∨ separated.state = .held) ∧
      (false = false ∧ (separated.printed + 1 < ((handed 66 (T + 4) (ordered separated)).arrive (at_ T)).jobLength separated ∨
        separated.separator = true ∧ 66 ≠ 12))) ∧
    (calm ((handed 65 T (ordered (heldJob (printingJob 0)))).arrive (at_ T)) = true ∧
      ((handed 65 T (ordered (heldJob (printingJob 0)))).arrive (at_ T)).admin.device = .run ∧
      ((handed 65 T (ordered (heldJob (printingJob 0)))).arrive (at_ T)).cfg.printEnable ≠ 0 ∧
      ((handed 65 T (ordered (heldJob (printingJob 0)))).arrive (at_ T)).spool.linesTaken = true ∧
      ((handed 65 T (ordered (heldJob (printingJob 0)))).arrive (at_ T)).spool.initPending = false ∧
      ((handed 65 T (ordered (heldJob (printingJob 0)))).arrive (at_ T)).spool.order = [4] ∧
      ((handed 65 T (ordered (heldJob (printingJob 0)))).arrive (at_ T)).job 4 = some (heldJob (printingJob 0)) ∧
      ((handed 65 T (ordered (heldJob (printingJob 0)))).arrive (at_ T)).spool.inHand = some (InHand.mk 65 false (some 4)) ∧
      ((heldJob (printingJob 0)).state = .printing ∧ (printerStateOf ((handed 65 T (ordered (heldJob (printingJob 0)))).arrive (at_
        T)).spool.absentMark false ((handed 65 T (ordered (heldJob (printingJob 0)))).arrive (at_ T)).pins.printer = PrinterState.ready ∨
        printerStateOf ((handed 65 T (ordered (heldJob (printingJob 0)))).arrive (at_ T)).spool.absentMark false ((handed 65 T (ordered
        (heldJob (printingJob 0)))).arrive (at_ T)).pins.printer = PrinterState.busy) ∨ (heldJob (printingJob 0)).state = .held) ∧
      (false = false ∧ ((heldJob (printingJob 0)).printed + 1 < ((handed 65 T (ordered (heldJob (printingJob 0)))).arrive (at_
        T)).jobLength (heldJob (printingJob 0)) ∨ (heldJob (printingJob 0)).separator = true ∧ 65 ≠ 12))) ∧
    (calm ((handed 66 (T + 4) (ordered (printingJob 1))).arrive (at_ T)) = true ∧
      ((handed 66 (T + 4) (ordered (printingJob 1))).arrive (at_ T)).admin.device = .run ∧
      ((handed 66 (T + 4) (ordered (printingJob 1))).arrive (at_ T)).cfg.printEnable ≠ 0 ∧
      ((handed 66 (T + 4) (ordered (printingJob 1))).arrive (at_ T)).spool.linesTaken = true ∧
      ((handed 66 (T + 4) (ordered (printingJob 1))).arrive (at_ T)).spool.initPending = false ∧
      ((handed 66 (T + 4) (ordered (printingJob 1))).arrive (at_ T)).spool.order = [4] ∧
      ((handed 66 (T + 4) (ordered (printingJob 1))).arrive (at_ T)).job 4 = some (printingJob 1) ∧
      ((handed 66 (T + 4) (ordered (printingJob 1))).arrive (at_ T)).spool.inHand = some (InHand.mk 66 false (some 4)) ∧
      ((printingJob 1).state = .printing ∧ (printerStateOf ((handed 66 (T + 4) (ordered (printingJob 1))).arrive (at_ T)).spool.absentMark
        false ((handed 66 (T + 4) (ordered (printingJob 1))).arrive (at_ T)).pins.printer = PrinterState.ready ∨ printerStateOf ((handed
        66 (T + 4) (ordered (printingJob 1))).arrive (at_ T)).spool.absentMark false ((handed 66 (T + 4) (ordered (printingJob 1))).arrive
        (at_ T)).pins.printer = PrinterState.busy) ∨ (printingJob 1).state = .held) ∧
      (false = true ∨ ¬(printingJob 1).printed + 1 < ((handed 66 (T + 4) (ordered (printingJob 1))).arrive (at_ T)).jobLength (printingJob
        1) ∧ ((printingJob 1).separator = false ∨ 66 = 12)) ∧
      2 ≤ (printingJob 1).copiesLeft ∧
      (0 < ((handed 66 (T + 4) (ordered (printingJob 1))).arrive (at_ T)).jobLength (printingJob 1) ∨ (printingJob 1).separator = true)) ∧
    (calm ((handedSeparator (ordered separatorJob)).arrive (at_ T)) = true ∧
      ((handedSeparator (ordered separatorJob)).arrive (at_ T)).admin.device = .run ∧
      ((handedSeparator (ordered separatorJob)).arrive (at_ T)).cfg.printEnable ≠ 0 ∧
      ((handedSeparator (ordered separatorJob)).arrive (at_ T)).spool.linesTaken = true ∧
      ((handedSeparator (ordered separatorJob)).arrive (at_ T)).spool.initPending = false ∧
      ((handedSeparator (ordered separatorJob)).arrive (at_ T)).spool.order = [4] ∧
      ((handedSeparator (ordered separatorJob)).arrive (at_ T)).job 4 = some separatorJob ∧
      ((handedSeparator (ordered separatorJob)).arrive (at_ T)).spool.inHand = some (InHand.mk 12 true (some 4)) ∧
      (separatorJob.state = .printing ∧ (printerStateOf ((handedSeparator (ordered separatorJob)).arrive (at_ T)).spool.absentMark false
        ((handedSeparator (ordered separatorJob)).arrive (at_ T)).pins.printer = PrinterState.ready ∨ printerStateOf ((handedSeparator
        (ordered separatorJob)).arrive (at_ T)).spool.absentMark false ((handedSeparator (ordered separatorJob)).arrive (at_
        T)).pins.printer = PrinterState.busy) ∨ separatorJob.state = .held) ∧
      (true = true ∨ ¬separatorJob.printed + 1 < ((handedSeparator (ordered separatorJob)).arrive (at_ T)).jobLength separatorJob ∧
        (separatorJob.separator = false ∨ 12 = 12)) ∧
      2 ≤ separatorJob.copiesLeft ∧
      (0 < ((handedSeparator (ordered separatorJob)).arrive (at_ T)).jobLength separatorJob ∨ separatorJob.separator = true)) ∧
    (calm ((handedSeparator (ordered emptyJob)).arrive (at_ T)) = true ∧
      ((handedSeparator (ordered emptyJob)).arrive (at_ T)).admin.device = .run ∧
      ((handedSeparator (ordered emptyJob)).arrive (at_ T)).cfg.printEnable ≠ 0 ∧
      ((handedSeparator (ordered emptyJob)).arrive (at_ T)).spool.linesTaken = true ∧
      ((handedSeparator (ordered emptyJob)).arrive (at_ T)).spool.initPending = false ∧
      ((handedSeparator (ordered emptyJob)).arrive (at_ T)).spool.order = [4] ∧
      ((handedSeparator (ordered emptyJob)).arrive (at_ T)).job 4 = some emptyJob ∧
      ((handedSeparator (ordered emptyJob)).arrive (at_ T)).spool.inHand = some (InHand.mk 12 true (some 4)) ∧
      (emptyJob.state = .printing ∧ (printerStateOf ((handedSeparator (ordered emptyJob)).arrive (at_ T)).spool.absentMark false
        ((handedSeparator (ordered emptyJob)).arrive (at_ T)).pins.printer = PrinterState.ready ∨ printerStateOf ((handedSeparator
        (ordered emptyJob)).arrive (at_ T)).spool.absentMark false ((handedSeparator (ordered emptyJob)).arrive (at_ T)).pins.printer =
        PrinterState.busy) ∨ emptyJob.state = .held) ∧
      (true = true ∨ ¬emptyJob.printed + 1 < ((handedSeparator (ordered emptyJob)).arrive (at_ T)).jobLength emptyJob ∧
        (emptyJob.separator = false ∨ 12 = 12)) ∧
      2 ≤ emptyJob.copiesLeft ∧
      (0 < ((handedSeparator (ordered emptyJob)).arrive (at_ T)).jobLength emptyJob ∨ emptyJob.separator = true)) ∧
    (calm ((handed 66 (T + 4) (readyBehind (ordered lastByte))).arrive (at_ T)) = true ∧
      ((handed 66 (T + 4) (readyBehind (ordered lastByte))).arrive (at_ T)).admin.device = .run ∧
      ((handed 66 (T + 4) (readyBehind (ordered lastByte))).arrive (at_ T)).cfg.printEnable ≠ 0 ∧
      ((handed 66 (T + 4) (readyBehind (ordered lastByte))).arrive (at_ T)).spool.linesTaken = true ∧
      ((handed 66 (T + 4) (readyBehind (ordered lastByte))).arrive (at_ T)).spool.initPending = false ∧
      ((handed 66 (T + 4) (readyBehind (ordered lastByte))).arrive (at_ T)).spool.order = [4, 6] ∧
      ((handed 66 (T + 4) (readyBehind (ordered lastByte))).arrive (at_ T)).job 4 = some lastByte ∧
      ((handed 66 (T + 4) (readyBehind (ordered lastByte))).arrive (at_ T)).spool.inHand = some (InHand.mk 66 false (some 4)) ∧
      (lastByte.state = .printing ∨ lastByte.state = .held) ∧
      (false = true ∨ ¬lastByte.printed + 1 < ((handed 66 (T + 4) (readyBehind (ordered lastByte))).arrive (at_ T)).jobLength lastByte ∧
        (lastByte.separator = false ∨ 66 = 12)) ∧
      lastByte.copiesLeft = 1 ∧
      ((handed 66 (T + 4) (readyBehind (ordered lastByte))).arrive (at_ T)).receivers = [] ∧
      (∀ (i : Slot), i ∈ [6] → ∃ ji, ((handed 66 (T + 4) (readyBehind (ordered lastByte))).arrive (at_ T)).job i = some ji ∧ ji.state =
        .ready)) ∧
    ((ordered lastCopy).check.bad = [] ∧
      (ordered lastCopy).pool.recovering = false ∧
      (ordered lastCopy).job 4 = some lastCopy ∧
      lastCopy.copiesLeft = 1 ∧
      List.filter (fun x => x != 4) (ordered lastCopy).receivers = [] ∧
      lastCopy.state = .printing) ∧
    ((ordered (printingJob 2)).check.bad = [] ∧
      (ordered (printingJob 2)).pool.recovering = false ∧
      (ordered (printingJob 2)).job 4 = some (printingJob 2) ∧
      2 ≤ (printingJob 2).copiesLeft ∧
      0 < (ordered (printingJob 2)).jobLength (printingJob 2)) ∧
    (calm ((initDue (handed 65 (T + 4) (slot 4 cancelledJob ready))).arrive (at_ T)) = true ∧
      ((initDue (handed 65 (T + 4) (slot 4 cancelledJob ready))).arrive (at_ T)).admin.device = .run ∧
      ((initDue (handed 65 (T + 4) (slot 4 cancelledJob ready))).arrive (at_ T)).cfg.printEnable ≠ 0 ∧
      ((initDue (handed 65 (T + 4) (slot 4 cancelledJob ready))).arrive (at_ T)).spool.linesTaken = true ∧
      ((initDue (handed 65 (T + 4) (slot 4 cancelledJob ready))).arrive (at_ T)).spool.initPulse = none ∧
      (∀ (i : Slot), i ∈ ((initDue (handed 65 (T + 4) (slot 4 cancelledJob ready))).arrive (at_ T)).spool.order → ∃ ji, ((initDue (handed
        65 (T + 4) (slot 4 cancelledJob ready))).arrive (at_ T)).job i = some ji ∧ ji.state = .ready) ∧
      ((initDue (handed 65 (T + 4) (slot 4 cancelledJob ready))).arrive (at_ T)).spool.inHand = some (InHand.mk 65 false (some 4)) ∧
      some 4 = some 4 ∧
      ((initDue (handed 65 (T + 4) (slot 4 cancelledJob ready))).arrive (at_ T)).job 4 = some cancelledJob ∧
      cancelledJob.isFinished = true) ∧
    (calm ((handedNone ready).arrive (at_ T)) = true ∧
      ((handedNone ready).arrive (at_ T)).admin.device = .run ∧
      ((handedNone ready).arrive (at_ T)).cfg.printEnable ≠ 0 ∧
      ((handedNone ready).arrive (at_ T)).spool.linesTaken = true ∧
      ((handedNone ready).arrive (at_ T)).spool.initPulse = none ∧
      (∀ (i : Slot), i ∈ ((handedNone ready).arrive (at_ T)).spool.order → ∃ ji, ((handedNone ready).arrive (at_ T)).job i = some ji ∧
        ji.state = .ready) ∧
      ((handedNone ready).arrive (at_ T)).spool.inHand = some (InHand.mk 65 false none)) ∧
    (calm ((handed 65 T (ordered (printingJob 0))).arrive (at_ T)) = true ∧
      ((handed 65 T (ordered (printingJob 0))).arrive (at_ T)).admin.device = .run ∧
      ((handed 65 T (ordered (printingJob 0))).arrive (at_ T)).spool.inHand = some (inHand 65) ∧
      ((handed 65 T (ordered (printingJob 0))).arrive (at_ T)).spool.byteTimer = some T ∧
      T ≤ ((handed 65 T (ordered (printingJob 0))).arrive (at_ T)).now ∧
      ((handed 65 T (ordered (printingJob 0))).arrive (at_ T)).cfg.printEnable ≠ 0 ∧
      ((handed 65 T (ordered (printingJob 0))).arrive (at_ T)).spool.linesTaken = true ∧
      ((handed 65 T (ordered (printingJob 0))).arrive (at_ T)).spool.order = [4] ∧
      ((handed 65 T (ordered (printingJob 0))).arrive (at_ T)).job 4 = some (printingJob 0) ∧
      ((handed 65 T (ordered (printingJob 0))).arrive (at_ T)).spool.initPending = false ∧
      (printingJob 0).state = .printing) ∧
    (((handed 65 T (ordered (heldJob (printingJob 0)))).arrive (at_ T)).spool.inHand = some (inHand 65) ∧
      ((handed 65 T (ordered (heldJob (printingJob 0)))).arrive (at_ T)).spool.byteTimer = some T ∧
      T ≤ ((handed 65 T (ordered (heldJob (printingJob 0)))).arrive (at_ T)).now ∧
      (heldJob (printingJob 0)).state = .held) ∧
    (calm ((initDue (handed 65 T (slot 4 cancelledJob ready))).arrive (at_ T)) = true ∧
      ((initDue (handed 65 T (slot 4 cancelledJob ready))).arrive (at_ T)).admin.device = .run ∧
      ((initDue (handed 65 T (slot 4 cancelledJob ready))).arrive (at_ T)).spool.inHand = some (inHand 65) ∧
      ((initDue (handed 65 T (slot 4 cancelledJob ready))).arrive (at_ T)).spool.byteTimer = some T ∧
      T ≤ ((initDue (handed 65 T (slot 4 cancelledJob ready))).arrive (at_ T)).now ∧
      ((initDue (handed 65 T (slot 4 cancelledJob ready))).arrive (at_ T)).cfg.printEnable ≠ 0 ∧
      ((initDue (handed 65 T (slot 4 cancelledJob ready))).arrive (at_ T)).spool.linesTaken = true ∧
      ((initDue (handed 65 T (slot 4 cancelledJob ready))).arrive (at_ T)).spool.initPulse = none ∧
      (∀ (i : Slot), i ∈ ((initDue (handed 65 T (slot 4 cancelledJob ready))).arrive (at_ T)).spool.order → ∃ ji, ((initDue (handed 65 T
        (slot 4 cancelledJob ready))).arrive (at_ T)).job i = some ji ∧ ji.state = .ready)) ∧
    (calm ((handed 65 (T + 1) ready).arrive (at_ T)) = true ∧
      ((handed 65 (T + 1) ready).arrive (at_ T)).admin.device = .run ∧
      ((handed 65 (T + 1) ready).arrive (at_ T)).spool.inHand = some (inHand 65) ∧
      ((handed 65 (T + 1) ready).arrive (at_ T)).spool.byteTimer = some (T + 1) ∧
      ((handed 65 (T + 1) ready).arrive (at_ T)).now < T + 1) := by
  refine ⟨?_, ?_, ?_, ?_, ?_, ?_, ?_, ?_, ?_, ?_, ?_, ?_, ?_, ?_, ?_, ?_⟩ <;> decide +kernel

theorem witness_WindowEndScoresTheSide :
    calm ((windowed (WindowCounts.mk 100 2 3 1 5 6 7 true) 1023 255).arrive (at_ T)) = true ∧
    ((windowed (WindowCounts.mk 100 2 3 1 5 6 7 true) 1023 255).arrive (at_ T)).admin.device ≠ .loading ∧
    (((windowed (WindowCounts.mk 100 2 3 1 5 6 7 true) 1023 255).arrive (at_ T)).side .west).windowEnd = some T ∧
    T ≤ ((windowed (WindowCounts.mk 100 2 3 1 5 6 7 true) 1023 255).arrive (at_ T)).now := by
  decide +kernel

theorem witness_ScoreCutsAndRestoresTheSide :
    ((scored 511).check.bad = [] ∧
      (scored 511).pool.recovering = false ∧
      ((scored 511).side .west).state = .joined ∧
      ((scored 511).side .west).score < (scored 511).cfg.partitionThreshold) ∧
    ((withHead RecordPhase.missed (scored 512)).check.bad = [] ∧
      (withHead RecordPhase.missed (scored 512)).pool.recovering = false ∧
      ((withHead RecordPhase.missed (scored 512)).side .west).state = .joined ∧
      (withHead RecordPhase.missed (scored 512)).cfg.partitionThreshold ≤ ((withHead RecordPhase.missed (scored 512)).side .west).score ∧
      ((withHead RecordPhase.missed (scored 512)).unit .west).inFlight = false ∧
      ((withHead RecordPhase.missed (scored 512)).side .west).pendingRestore = false ∧
      ((withHead RecordPhase.missed (scored 512)).side (otherSide .west)).state = .joined ∧
      ((withHead RecordPhase.missed (scored 512)).unit .west).rx = none) ∧
    ((withHead RecordPhase.sending (scored 512)).check.bad = [] ∧
      (withHead RecordPhase.sending (scored 512)).pool.recovering = false ∧
      ((withHead RecordPhase.sending (scored 512)).side .west).state = .joined ∧
      (withHead RecordPhase.sending (scored 512)).cfg.partitionThreshold ≤ ((withHead RecordPhase.sending (scored 512)).side .west).score ∧
      ((withHead RecordPhase.sending (scored 512)).unit .west).inFlight = true ∧
      ((withHead RecordPhase.sending (scored 512)).side (otherSide .west)).state = .joined) ∧
    ((cutWest 127 3).check.bad = [] ∧
      (cutWest 127 3).pool.recovering = false ∧
      ((cutWest 127 3).side .west).state = .partitioned ∧
      ((cutWest 127 3).side .west).reason = some .health ∧
      ((cutWest 127 3).side .west).score < (cutWest 127 3).cfg.restoreThreshold ∧
      3 ≤ ((cutWest 127 3).side .west).cleanRun ∧
      (∀ (i : EntryNo) (c : AliasEntry), (cutWest 127 3).entry i = some c → c.phase.isProbing = false)) ∧
    ((cutWest 128 3).check.bad = [] ∧
      (cutWest 128 3).pool.recovering = false ∧
      ((cutWest 128 3).side .west).state = .partitioned ∧
      (((cutWest 128 3).side .west).reason ≠ some .health ∨ (cutWest 128 3).cfg.restoreThreshold ≤ ((cutWest 128 3).side .west).score ∨
        ((cutWest 128 3).side .west).cleanRun < 3)) ∧
    ((partitioning RecordPhase.sending).check.bad = [] ∧
      (partitioning RecordPhase.sending).pool.recovering = false ∧
      ((partitioning RecordPhase.sending).side .west).state = .partitioning ∧
      ((partitioning RecordPhase.sending).unit .west).inFlight = true) ∧
    ((partitioning RecordPhase.missed).check.bad = [] ∧
      (partitioning RecordPhase.missed).pool.recovering = false ∧
      ((partitioning RecordPhase.missed).side .west).state = .partitioning ∧
      ((partitioning RecordPhase.missed).unit .west).inFlight = false ∧
      ((partitioning RecordPhase.missed).side .west).pendingRestore = false ∧
      ((partitioning RecordPhase.missed).side .west).reason = some .loop) ∧
    ((lastJoined 512).check.bad = [] ∧
      (lastJoined 512).pool.recovering = false ∧
      ((lastJoined 512).side .west).state = .joined ∧
      ((lastJoined 512).side (otherSide .west)).state ≠ .joined ∧
      (lastJoined 512).cfg.partitionThreshold ≤ ((lastJoined 512).side .west).score ∧
      (lastJoined 512).entry 2 = some (nodeEntry nodeA 0 (.probing 209 (.running (T - 8)))) ∧
      ((lastJoined 512).unit .west).inFlight = false ∧
      ((lastJoined 512).side .west).pendingRestore = false ∧
      ((lastJoined 512).unit .west).rx = none) ∧
    ((receivingIn .countOnly none).check.bad = [] ∧
      (receivingIn .countOnly none).pool.recovering = false ∧
      ((receivingIn .countOnly none).side .west).state = .joined ∧
      ((receivingIn .countOnly none).side (otherSide .west)).state ≠ .joined ∧
      (receivingIn .countOnly none).cfg.partitionThreshold ≤ ((receivingIn .countOnly none).side .west).score ∧
      (receivingIn .countOnly none).entry 2 = some (nodeEntry nodeA 0 (.probing 209 (.running (T - 8)))) ∧
      ((receivingIn .countOnly none).unit .west).inFlight = false ∧
      ((receivingIn .countOnly none).side .west).pendingRestore = false ∧
      ((receivingIn .countOnly none).unit .west).rx = some { burst [1, 2, 3] with mode := .countOnly, chain := none }) ∧
    ((receivingIn .full (some inBlock0)).check.bad = [] ∧
      (receivingIn .full (some inBlock0)).pool.recovering = false ∧
      ((receivingIn .full (some inBlock0)).side .west).state = .joined ∧
      ((receivingIn .full (some inBlock0)).side (otherSide .west)).state ≠ .joined ∧
      (receivingIn .full (some inBlock0)).cfg.partitionThreshold ≤ ((receivingIn .full (some inBlock0)).side .west).score ∧
      (receivingIn .full (some inBlock0)).entry 2 = some (nodeEntry nodeA 0 (.probing 209 (.running (T - 8)))) ∧
      ((receivingIn .full (some inBlock0)).unit .west).inFlight = false ∧
      ((receivingIn .full (some inBlock0)).side .west).pendingRestore = false ∧
      ((receivingIn .full (some inBlock0)).unit .west).rx = some { burst [1, 2, 3] with mode := .full, chain := some inBlock0 }) ∧
    ((withHead .sending (lastJoined 512)).check.bad = [] ∧
      (withHead .sending (lastJoined 512)).pool.recovering = false ∧
      ((withHead .sending (lastJoined 512)).side .west).state = .joined ∧
      ((withHead .sending (lastJoined 512)).side (otherSide .west)).state ≠ .joined ∧
      (withHead .sending (lastJoined 512)).cfg.partitionThreshold ≤ ((withHead .sending (lastJoined 512)).side .west).score ∧
      (withHead .sending (lastJoined 512)).entry 2 = some (nodeEntry nodeA 0 (.probing 209 (.running (T - 8)))) ∧
      ((withHead .sending (lastJoined 512)).unit .west).inFlight = true) ∧
    (restoreDue.check.bad = [] ∧
      restoreDue.pool.recovering = false ∧
      (restoreDue.side .west).state = .partitioning ∧
      (restoreDue.unit .west).inFlight = false ∧
      (restoreDue.side .west).pendingRestore = true ∧
      (restoreDue.unit .west).rx = none ∧
      allEntries restoreDue (fun _ c => !c.phase.isProbing) = true) := by
  refine ⟨?_, ?_, ?_, ?_, ?_, ?_, ?_, ?_, ?_, ?_, ?_, ?_⟩ <;> decide +kernel

theorem witness_LoopEvidenceIsAssessed :
    (calm ((loopHeld .loop T).arrive (at_ T)) = true ∧
      ((loopHeld .loop T).arrive (at_ T)).admin.device ≠ .loading ∧
      (((loopHeld .loop T).arrive (at_ T)).side .east).loopHold = some T ∧
      T ≤ ((loopHeld .loop T).arrive (at_ T)).now ∧
      (((loopHeld .loop T).arrive (at_ T)).side .east).state = .partitioned ∧
      (((loopHeld .loop T).arrive (at_ T)).side .east).reason = some .loop ∧
      (∀ (i : EntryNo) (c : AliasEntry), ((loopHeld .loop T).arrive (at_ T)).entry i = some c → c.phase.isProbing = false)) ∧
    (calm ((loopHeld .admin T).arrive (at_ T)) = true ∧
      ((loopHeld .admin T).arrive (at_ T)).admin.device ≠ .loading ∧
      (((loopHeld .admin T).arrive (at_ T)).side .east).loopHold = some T ∧
      T ≤ ((loopHeld .admin T).arrive (at_ T)).now ∧
      (((loopHeld .admin T).arrive (at_ T)).side .east).reason ≠ some .loop) ∧
    (calm ((loopHeld .loop (T + 1)).arrive (at_ T)) = true ∧
      ((loopHeld .loop (T + 1)).arrive (at_ T)).admin.device ≠ .loading ∧
      (((loopHeld .loop (T + 1)).arrive (at_ T)).side .east).loopHold = some (T + 1) ∧
      ((loopHeld .loop (T + 1)).arrive (at_ T)).now < T + 1) ∧
    (calm ((rostered (peer none none) T).arrive (at_ T)) = true ∧
      ((rostered (peer none none) T).arrive (at_ T)).admin.device = .run ∧
      watch T ∈ ((rostered (peer none none) T).arrive (at_ T)).health.watches ∧
      (watch T).peer = peerId ∧
      (watch T).expiry ≤ ((rostered (peer none none) T).arrive (at_ T)).now ∧
      ((rostered (peer none none) T).arrive (at_ T)).peer 4 = some (peer none none) ∧
      (peer none none).ident = peerId ∧
      allPeers ((rostered (peer none none) T).arrive (at_ T)) (fun i q => decide (4 ≤ i ∨ q.ident ≠ peerId)) = true) ∧
    (calm ((watching (watch T) lent).arrive (at_ T)) = true ∧
      ((watching (watch T) lent).arrive (at_ T)).admin.device = .run ∧
      watch T ∈ ((watching (watch T) lent).arrive (at_ T)).health.watches ∧
      (watch T).expiry ≤ ((watching (watch T) lent).arrive (at_ T)).now ∧
      (∀ (i : RosterNo) (q : RosterEntry), ((watching (watch T) lent).arrive (at_ T)).peer i = some q → q.ident ≠ peerId)) ∧
    lent.health.assessment = none ∧
    (calm ((assessing T false lent).arrive (at_ T)) = true ∧
      ((assessing T false lent).arrive (at_ T)).admin.device ≠ .loading ∧
      ((assessing T false lent).arrive (at_ T)).health.assessment = some T ∧
      T ≤ ((assessing T false lent).arrive (at_ T)).now ∧
      ((assessing T false lent).arrive (at_ T)).health.ownLooped = false ∧ allPeers ((assessing T false lent).arrive (at_ T)) (fun _ q =>
        !q.looped) = true) ∧
    (calm ((assessing T true (cutting .east (rostered (peer none none) T))).arrive (at_ T)) = true ∧
      ((assessing T true (cutting .east (rostered (peer none none) T))).arrive (at_ T)).admin.device ≠ .loading ∧
      ((assessing T true (cutting .east (rostered (peer none none) T))).arrive (at_ T)).health.assessment = some T ∧
      T ≤ ((assessing T true (cutting .east (rostered (peer none none) T))).arrive (at_ T)).now ∧
      ((assessing T true (cutting .east (rostered (peer none none) T))).arrive (at_ T)).health.ownLooped = true ∧ (((assessing T true
        (cutting .east (rostered (peer none none) T))).arrive (at_ T)).side .west).state = .joined ∧ (((assessing T true (cutting .east
        (rostered (peer none none) T))).arrive (at_ T)).side .east).state = .joined ∧ allPeers ((assessing T true (cutting .east (rostered
        (peer none none) T))).arrive (at_ T)) (fun _ q => decide (q.looped = true → ((assessing T true (cutting .east (rostered (peer none
        none) T))).arrive (at_ T)).cfg.baseId.getD 0 < q.ident)) = true ∧
      (((assessing T true (cutting .east (rostered (peer none none) T))).arrive (at_ T)).unit .east).inFlight = true) ∧
    (calm ((assessing T true (rostered (peer none none) T)).arrive (at_ T)) = true ∧
      ((assessing T true (rostered (peer none none) T)).arrive (at_ T)).admin.device ≠ .loading ∧
      ((assessing T true (rostered (peer none none) T)).arrive (at_ T)).health.assessment = some T ∧
      T ≤ ((assessing T true (rostered (peer none none) T)).arrive (at_ T)).now ∧
      ((assessing T true (rostered (peer none none) T)).arrive (at_ T)).health.ownLooped = true ∧ (((assessing T true (rostered (peer none
        none) T)).arrive (at_ T)).side .west).state = .joined ∧ (((assessing T true (rostered (peer none none) T)).arrive (at_ T)).side
        .east).state = .joined ∧ allPeers ((assessing T true (rostered (peer none none) T)).arrive (at_ T)) (fun _ q => decide (q.looped =
        true → ((assessing T true (rostered (peer none none) T)).arrive (at_ T)).cfg.baseId.getD 0 < q.ident)) = true ∧
      (((assessing T true (rostered (peer none none) T)).arrive (at_ T)).unit .east).inFlight = false ∧
      (((assessing T true (rostered (peer none none) T)).arrive (at_ T)).unit .east).queue = [] ∧
      (((assessing T true (rostered (peer none none) T)).arrive (at_ T)).unit .east).rx = none ∧
      (((assessing T true (rostered (peer none none) T)).arrive (at_ T)).side .east).pendingRestore = false) ∧
    (calm ((assessing (T + 1) true lent).arrive (at_ T)) = true ∧
      ((assessing (T + 1) true lent).arrive (at_ T)).admin.device ≠ .loading ∧
      ((assessing (T + 1) true lent).arrive (at_ T)).health.assessment = some (T + 1) ∧
      ((assessing (T + 1) true lent).arrive (at_ T)).now < T + 1) ∧
    (lent.cfg.baseId = some (announced 0x00400B001000).junction ∧
      lent.health.assessment = none ∧
      (assessing (T + 5) false lent).health.assessment = some (T + 5)) ∧
    (echoing.check.bad = [] ∧
      echoing.pool.recovering = false ∧
      echoing.admin.device = .run ∧
      (∃ t ∈ echoing.transmissions, t.src = frame17Header.src ∧ t.seq = frame17Header.seq ∧ t.kind = frame17Header.kind) ∧
      (burst []).chain = none) ∧
    ((rostered (heardPeer (T - 20000000)) T).check.bad = [] ∧
      (rostered (heardPeer (T - 20000000)) T).peer 4 = some (heardPeer (T - 20000000)) ∧
      (heardPeer (T - 20000000)).ident = peerId ∧
      allPeers (rostered (heardPeer (T - 20000000)) T) (fun i q => decide (4 ≤ i ∨ q.ident ≠ peerId)) = true ∧
      Sides.get (heardPeer (T - 20000000)).seq (otherSide .west) = some 4 ∧
      Sides.get (heardPeer (T - 20000000)).heard (otherSide .west) = some (T - 20000000) ∧
      (rostered (heardPeer (T - 20000000)) T).now ≤ (T - 20000000) + 2 * Config.sec) ∧
    ((rostered (heardPeer (T - 20000001)) T).check.bad = [] ∧
      (rostered (heardPeer (T - 20000001)) T).peer 4 = some (heardPeer (T - 20000001)) ∧
      (heardPeer (T - 20000001)).ident = peerId ∧
      allPeers (rostered (heardPeer (T - 20000001)) T) (fun i q => decide (4 ≤ i ∨ q.ident ≠ peerId)) = true ∧
      allPeers (rostered (heardPeer (T - 20000001)) T) (fun _ q => decide (q.ident ≠ peerId ∨ Sides.get q.seq (otherSide .west) ≠ some 4 ∨
        ∀ h ∈ Sides.get q.heard (otherSide .west), ¬ (rostered (heardPeer (T - 20000001)) T).now ≤ h + 2 * Config.sec)) = true ∧
      (List.filter (fun w => w.peer != peerId) (rostered (heardPeer (T - 20000001)) T).health.watches).length < 16) ∧
    (sixteenWatched.check.bad = [] ∧
      allPeers sixteenWatched (fun _ q => decide (q.ident ≠ peerId)) = true ∧
      List.filter (fun w => w.peer != peerId) sixteenWatched.health.watches = ⟨900, .west, 1, T⟩ :: sixteenWatches.tail ∧
      sixteenWatches.tail.length = 15 ∧
      (∀ v ∈ sixteenWatches.tail, T ≤ v.expiry)) := by
  refine ⟨?_, ?_, ?_, ?_, ?_, ?_, ?_, ?_, ?_, ?_, ?_, ?_, ?_, ?_, ?_⟩ <;> decide +kernel

theorem witness_StarWindowEndIsolates :
    (sound ((starWindow (PortCounts.mk 15 200 0) upPort).arrive (at_ T)) = true ∧
      ((starWindow (PortCounts.mk 15 200 0) upPort).arrive (at_ T)).admin.device = .run ∧
      (((starWindow (PortCounts.mk 15 200 0) upPort).arrive (at_ T)).port 0).windowEnd = some T ∧
      T ≤ ((starWindow (PortCounts.mk 15 200 0) upPort).arrive (at_ T)).now ∧
      ((((starWindow (PortCounts.mk 15 200 0) upPort).arrive (at_ T)).port 0).state ≠ .up ∨ ¬(((starWindow (PortCounts.mk 15 200 0)
        upPort).arrive (at_ T)).cfg.starErrorLimit ≤ (((starWindow (PortCounts.mk 15 200 0) upPort).arrive (at_ T)).port 0).window.ce ∨
        ((starWindow (PortCounts.mk 15 200 0) upPort).arrive (at_ T)).cfg.starBroadcastLimit < (((starWindow (PortCounts.mk 15 200 0)
        upPort).arrive (at_ T)).port 0).window.bc ∨ 1 ≤ (((starWindow (PortCounts.mk 15 200 0) upPort).arrive (at_ T)).port 0).window.ov))) ∧
    (sound ((starWindow (PortCounts.mk 16 0 0) upPort).arrive (at_ T)) = true ∧
      ((starWindow (PortCounts.mk 16 0 0) upPort).arrive (at_ T)).admin.device = .run ∧
      (((starWindow (PortCounts.mk 16 0 0) upPort).arrive (at_ T)).port 0).windowEnd = some T ∧
      T ≤ ((starWindow (PortCounts.mk 16 0 0) upPort).arrive (at_ T)).now ∧
      (((starWindow (PortCounts.mk 16 0 0) upPort).arrive (at_ T)).port 0).state = .up ∧
      (((starWindow (PortCounts.mk 16 0 0) upPort).arrive (at_ T)).cfg.starErrorLimit ≤ (((starWindow (PortCounts.mk 16 0 0)
        upPort).arrive (at_ T)).port 0).window.ce ∨ ((starWindow (PortCounts.mk 16 0 0) upPort).arrive (at_ T)).cfg.starBroadcastLimit <
        (((starWindow (PortCounts.mk 16 0 0) upPort).arrive (at_ T)).port 0).window.bc ∨ 1 ≤ (((starWindow (PortCounts.mk 16 0 0)
        upPort).arrive (at_ T)).port 0).window.ov)) ∧
    (sound ((starWindow (PortCounts.mk 0 201 0) upPort).arrive (at_ T)) = true ∧
      ((starWindow (PortCounts.mk 0 201 0) upPort).arrive (at_ T)).admin.device = .run ∧
      (((starWindow (PortCounts.mk 0 201 0) upPort).arrive (at_ T)).port 0).windowEnd = some T ∧
      T ≤ ((starWindow (PortCounts.mk 0 201 0) upPort).arrive (at_ T)).now ∧
      (((starWindow (PortCounts.mk 0 201 0) upPort).arrive (at_ T)).port 0).state = .up ∧
      (((starWindow (PortCounts.mk 0 201 0) upPort).arrive (at_ T)).cfg.starErrorLimit ≤ (((starWindow (PortCounts.mk 0 201 0)
        upPort).arrive (at_ T)).port 0).window.ce ∨ ((starWindow (PortCounts.mk 0 201 0) upPort).arrive (at_ T)).cfg.starBroadcastLimit <
        (((starWindow (PortCounts.mk 0 201 0) upPort).arrive (at_ T)).port 0).window.bc ∨ 1 ≤ (((starWindow (PortCounts.mk 0 201 0)
        upPort).arrive (at_ T)).port 0).window.ov)) ∧
    (sound ((starWindow (PortCounts.mk 0 0 1) upPort).arrive (at_ T)) = true ∧
      ((starWindow (PortCounts.mk 0 0 1) upPort).arrive (at_ T)).admin.device = .run ∧
      (((starWindow (PortCounts.mk 0 0 1) upPort).arrive (at_ T)).port 0).windowEnd = some T ∧
      T ≤ ((starWindow (PortCounts.mk 0 0 1) upPort).arrive (at_ T)).now ∧
      (((starWindow (PortCounts.mk 0 0 1) upPort).arrive (at_ T)).port 0).state = .up ∧
      (((starWindow (PortCounts.mk 0 0 1) upPort).arrive (at_ T)).cfg.starErrorLimit ≤ (((starWindow (PortCounts.mk 0 0 1) upPort).arrive
        (at_ T)).port 0).window.ce ∨ ((starWindow (PortCounts.mk 0 0 1) upPort).arrive (at_ T)).cfg.starBroadcastLimit < (((starWindow
        (PortCounts.mk 0 0 1) upPort).arrive (at_ T)).port 0).window.bc ∨ 1 ≤ (((starWindow (PortCounts.mk 0 0 1) upPort).arrive (at_
        T)).port 0).window.ov)) := by
  refine ⟨?_, ?_, ?_, ?_⟩ <;> decide +kernel

theorem witness_StarWindowEndIsolates_busy :
    let a := (starWindow ⟨16, 0, 0⟩ fullPort).arrive (at_ T)
    sound a = true ∧ a.admin.device = .run ∧ (a.port 0).windowEnd = some T ∧ T ≤ a.now ∧ (a.port 0).state = .up ∧
      a.cfg.starErrorLimit ≤ (a.port 0).window.ce ∧ (a.port 0).queue.length = 2 ∧ (a.port 0).sending = some (T - 80) ∧
      ((a.port 0).rx.bind (·.chain)) = some ⟨1, 1, 1⟩ := by
  decide +kernel

theorem witness_IsolationEndsByHoldOrCommand :
    4 ≤ 4 ∧
    (restored.check.bad = [] ∧
      restored.pool.recovering = false ∧
      (restored.port 0).state = .up) ∧
    (fullPort.check.bad = [] ∧
      fullPort.pool.recovering = false ∧
      (fullPort.port 0).state = .up ∧
      (fullPort.port 0).queue.length = 2) ∧
    (calm ((isolatedUntil T).arrive (at_ T)) = true ∧
      (((isolatedUntil T).arrive (at_ T)).port 0).state = .isolated ∧
      (((isolatedUntil T).arrive (at_ T)).port 0).holdEnd = some T ∧
      T ≤ ((isolatedUntil T).arrive (at_ T)).now) ∧
    (calm ((isolatedUntil (T + 1)).arrive (at_ T)) = true ∧
      ((((isolatedUntil (T + 1)).arrive (at_ T)).port 0).state ≠ .isolated ∨ ∀ (t : Time), (((isolatedUntil (T + 1)).arrive (at_ T)).port
        0).holdEnd = some t → ((isolatedUntil (T + 1)).arrive (at_ T)).now < t)) ∧
    (calm ((asked asksRelease lent).arrive (at_ T)) = true ∧
      ((asked asksRelease lent).arrive (at_ T)).admin.device = .run ∧
      ((asked asksRelease lent).arrive (at_ T)).admin.inbox = [asksRelease] ∧
      asksRelease.op = 3 ∧
      asksRelease.command = 3 ∧
      (served ((asked asksRelease lent).arrive (at_ T)) asksRelease).isAdmin asksRelease.requester = true ∧
      portOf asksRelease.argument = some 0 ∧
      ((served ((asked asksRelease lent).arrive (at_ T)) asksRelease).port 0).state ≠ .isolated) ∧
    (calm ((asked asksRelease (unlinked (isolatedUntil T))).arrive (at_ T)) = true ∧
      ((asked asksRelease (unlinked (isolatedUntil T))).arrive (at_ T)).admin.device = .run ∧
      ((asked asksRelease (unlinked (isolatedUntil T))).arrive (at_ T)).admin.inbox = [asksRelease] ∧
      (served ((asked asksRelease (unlinked (isolatedUntil T))).arrive (at_ T)) asksRelease).isAdmin asksRelease.requester = true ∧
      ((served ((asked asksRelease (unlinked (isolatedUntil T))).arrive (at_ T)) asksRelease).port 0).state = .isolated ∧
      ((asked asksRelease (unlinked (isolatedUntil T))).arrive (at_ T)).pins.link[0] = false) ∧
    (calm ((asked asksRelease (isolatedUntil T)).arrive (at_ T)) = true ∧
      ((asked asksRelease (isolatedUntil T)).arrive (at_ T)).admin.device = .run ∧
      ((asked asksRelease (isolatedUntil T)).arrive (at_ T)).admin.inbox = [asksRelease] ∧
      (served ((asked asksRelease (isolatedUntil T)).arrive (at_ T)) asksRelease).isAdmin asksRelease.requester = true ∧
      ((served ((asked asksRelease (isolatedUntil T)).arrive (at_ T)) asksRelease).port 0).state = .isolated ∧
      ((asked asksRelease (isolatedUntil T)).arrive (at_ T)).pins.link[0] = true) := by
  refine ⟨?_, ?_, ?_, ?_, ?_, ?_, ?_, ?_⟩ <;> decide +kernel

/-- A command of station 23 handed over to a device in RUN, and whether station 23 is on the admin list. -/
def commanded (s : State) (r : Request) (isAdmin : Bool) : Bool :=
  let a := (asked r s).arrive (at_ T)
  calm a && decide (a.admin.device = .run) && decide (a.admin.inbox = [r]) && (r.op == 3) && ((served a r).isAdmin r.requester == isAdmin)

theorem witness_IsolationEndsByHoldOrCommand_judged :
    (commanded (noAdmin lent) asksRelease false = true ∧ asksRelease.command = 3) ∧
    (commanded lent (request 3 0 0 3 0) true = true ∧ (request 3 0 0 3 0).argument = 0) ∧
    (commanded lent (request 3 0 0 3 7) true = true ∧ 6 < (request 3 0 0 3 7).argument.toNat) ∧
    (commanded lent (request 3 0 0 3 6) true = true ∧ portOf (request 3 0 0 3 6).argument = some 5) := by
  refine ⟨?_, ?_, ?_, ?_⟩ <;> decide +kernel

theorem witness_JobsEndByCancelIdlenessAndTime_judged :
    (commanded (noAdmin lent) asksCancel false = true ∧ asksCancel.command = 4) ∧
    (commanded lent (request 3 0 0 4 0) true = true ∧ (request 3 0 0 4 0).argument = 0) := by
  refine ⟨?_, ?_⟩ <;> decide +kernel

theorem witness_RestartIsPendingReleasesAndResets_denied :
    commanded (noAdmin lent) (request 3 0 0 5 0) false = true ∧ (request 3 0 0 5 0).command = 5 := by
  refine ⟨?_, ?_⟩ <;> decide +kernel

/-! ### Clauses with witnesses of their own -/

/-- A RESTART's two steps, each one unit before its time. -/
def restartEarly : State := admin (fun a => { a with restartPending := some (T - 2499999) }) lent
def restartUnready : State := admin (fun a => { a with releasesSent := some (T - 2499999) }) lent

theorem witness_RestartIsPendingReleasesAndResets_early :
    (calm (restartEarly.arrive (at_ T)) = true ∧ (restartEarly.arrive (at_ T)).admin.restartPending = some (T - 2499999) ∧
      (restartEarly.arrive (at_ T)).now < T - 2499999 + 250 * Config.ms) ∧
    (calm (relayOnly.arrive (at_ T)) = true ∧ (relayOnly.arrive (at_ T)).admin.device ≠ .run) ∧
    ((restartUnready.arrive (at_ T)).admin.releasesSent = some (T - 2499999) ∧
      (restartUnready.arrive (at_ T)).now < T - 2499999 + 250 * Config.ms) := by
  refine ⟨?_, ?_, ?_⟩ <;> decide +kernel

/-- Tests of block 3 wait; a word at a place in the scrubber's order is uncorrectable. -/
def awaitingTests (n : Nat) (s : State) : State := check (fun c => { c with waiting := List.replicate n ⟨3, 1⟩ }) s
def scrubStruck (n : Nat) (s : State) : State :=
  check (fun c => { c with scrubPos := n, scrubAt := some T, bad := [⟨scrubLoc n, .uncorrectable 5, 3⟩] }) s
def scrubs (s : State) : Bool :=
  let a := s.arrive (at_ T)
  settled a && decide (a.admin.device ≠ .loading) && decide (a.check.scrubAt = some T) && decide (T ≤ a.now) &&
  decide (a.check.bad = [⟨scrubLoc a.check.scrubPos, .uncorrectable 5, 3⟩]) && !a.passedOver (scrubLoc a.check.scrubPos) &&
  !a.pool.recovering

theorem witness_RetireTestAndScrubberTakeTheirTurns_waiting :
    (Memory.wf ((awaitingTests 1 testFree).arrive (at_ T)).memory = true ∧
      ((awaitingTests 1 testFree).arrive (at_ T)).check.test = some (target, T - 640) ∧
      ((awaitingTests 1 testFree).arrive (at_ T)).check.waiting = [⟨3, 1⟩]) ∧
    (Memory.wf lent.memory = true ∧ lent.check.test = none) ∧
    ((awaitingTests 7 testFree).check.test ≠ none ∧ (awaitingTests 7 testFree).check.waiting.length < 8) ∧
    ((awaitingTests 8 testFree).check.test ≠ none ∧ 8 ≤ (awaitingTests 8 testFree).check.waiting.length) ∧
    (scrubs (scrubStruck 9751 lent) = true ∧ (scrubLoc 9751).store ≠ .blockMemory) ∧
    (scrubs (scrubStruck 95 lent) = true ∧ scrubLoc 95 = ⟨.blockMemory, 2, 31⟩ ∧ lent.pool.records[(2 : BlockNo)].cls = .free ∧
      lent.underTest 2 = false ∧ Memory.wf lent.memory = true ∧ lent.check.test = none) ∧
    (scrubs (scrubStruck 95 (awaitingTests 7 testFree)) = true ∧ (awaitingTests 7 testFree).underTest 2 = false) ∧
    scrubs (scrubStruck 95 (awaitingTests 8 testFree)) = true ∧
    (scrubs (scrubStruck 0 twoBlocks) = true ∧ scrubLoc 0 = ⟨.blockMemory, 0, 0⟩ ∧
      twoBlocks.pool.records[(0 : BlockNo)].cls ≠ .free) := by
  refine ⟨?_, ?_, ?_, ?_, ?_, ?_, ?_, ?_, ?_⟩ <;> decide +kernel

theorem witness_PoolRecoveryRebuildsTheRecords_record :
    (hit .blockRecords 0 lent).check.bad = [⟨⟨.blockRecords, 0, 0⟩, .uncorrectable 5, 3⟩] ∧
    (hit .blockRecords 0 lent).check.capture = none ∧ (hit .blockRecords 0 lent).pool.recovering = false ∧
    (hit .blockRecords 0 lent).pool.head = some 0 ∧ 1 ≤ lent.pool.free ∧ lent.pool.forwardingHeld + 1 ≤ lent.cfg.forwardCap ∧
    lent.heldCount .internal + 1 ≤ lent.cfg.portQuota := by
  refine ⟨?_, ?_, ?_, ?_, ?_, ?_, ?_⟩ <;> decide +kernel

/-- A frame for the junction in block 0, word 2 of it uncorrectable: it lies among the bytes that a reader of `upto` bytes takes. -/
def struckFrame (d k : Byte) (p : List Byte) : State :=
  struck (oneBlock (.side .west) (fr d (if d = 255 then 209 else 23) k 1 p) lent)
def readsStruck (s : State) (upto : Nat → Nat) : Bool :=
  decide (s.check.bad = [badWord]) && decide (s.check.capture = none) && !s.pool.recovering &&
  chainWords (s.blocksOf inBlock0.first) 0 (upto (s.storedLength (s.blocksOf inBlock0.first) .trunk)) badWord.loc
def claimBytes : List Byte := [209, 2, 0x60, 0x1C, 0, 4, 0x11, 0, 0x40, 0x0B, 0, 0x90, 0]
def claimHeard : TrunkFrame := ⟨.west, ⟨255, 209, 64, 1, 13⟩, .broadcast, false, false, false, some inBlock0⟩
def castBefore (s : State) : State := engine (fun q => { q with broadcasts := [⟨209, 1, 64, T⟩] }) s

theorem witness_UncorrectableWordDamagesTheRecord_read :
    readsStruck (struckFrame 131 72 [1, 1, 0, 0, 0]) (fun n => 6 + n) = true ∧
    readsStruck (struckFrame 132 17 [7, 0, 0, 65]) (fun n => 6 + min n 3) = true ∧
    readsStruck (struckFrame 132 16 [1, 2, 3, 4, 5, 6, 7, 8]) (fun n => 6 + n) = true ∧
    readsStruck (struckFrame 131 64 claimBytes) (fun n => 6 + n) = true ∧
    (readsStruck (struckFrame 255 64 claimBytes) (fun n => 6 + n) = true ∧
      (struckFrame 255 64 claimBytes).cfg.isReserved 209 = false ∧ (kindOf 64).isLending = true ∧
      (struckFrame 255 64 claimBytes).admin.device = .run ∧ (struckFrame 255 64 claimBytes).engine.broadcasts = []) ∧
    (castBefore (struckFrame 255 64 claimBytes)).engine.broadcasts = [⟨209, 1, 64, T⟩] ∧
    ((struck carrying).check.bad = [badWord] ∧ (struck carrying).check.capture = none ∧ (struck carrying).pool.recovering = false ∧
      (struck carrying).pool.records[(0 : BlockNo)].next = none ∧ grants (struck carrying) (.side .west) 1 = true) := by
  refine ⟨?_, ?_, ?_, ?_, ?_, ?_, ?_⟩ <;> decide +kernel

/-- A frame of the reserved station 224 came in on WEST, with no block, for station 17. -/
def fromReserved : State := unit .west (fun u => { u with rx := some { burst (fr 17 224 1 4 [1, 2, 3]) with decode := some .noPath } }) lent
def wholeTrunk (s : State) : Reception := rxOf (after s .west []) .west

theorem witness_RelayedFrameIsPlacedAndAnswered_reserved :
    (calm (after fromReserved .west []) = true ∧ ((after fromReserved .west []).unit .west).rx = some (wholeTrunk fromReserved) ∧
      (wholeTrunk fromReserved).mode = .full ∧ (wholeTrunk fromReserved).jabber = false ∧ (wholeTrunk fromReserved).settles = false ∧
      classifyTrunk (wholeTrunk fromReserved).bytes = .good ∧ trunkHeaderOf (wholeTrunk fromReserved).bytes = some ⟨17, 224, 1, 4, 3⟩ ∧
      (wholeTrunk fromReserved).decode = some .noPath ∧ (wholeTrunk fromReserved).chain = none ∧ (kindOf 1).isAnswer = false ∧
      ((after fromReserved .west []).side .west).state = .joined ∧ (after fromReserved .west []).transmissions = [] ∧
      (after fromReserved .west []).cfg.isReserved 224 = true ∧ lent.cfg.isReserved 223 = false) ∧
    ({ noChain .noPath with header := ⟨17, 254, 1, 4, 3⟩ }.echo = false ∧ lent.cfg.isReserved 254 = true) := by
  refine ⟨?_, ?_⟩ <;> decide +kernel

/-- A CLAIM of a number that nobody has came in on WEST as a broadcast, its chain in block 0; what the Alias Unit makes of it. -/
def claimCarried (s : State) : State := oneBlock (.side .west) (fr 255 209 64 1 claimBytes) s
def claimRead (s : State) : State := (s.raiseDecode .broadcast).aliasFrame .west .claim 1 (s.isRepeat 209 1 64) claimBytes

theorem witness_RecentBroadcastsStandTwoSeconds_lending :
    (calm (claimCarried lent) = true ∧ claimHeard.echo = false ∧ (claimCarried lent).cfg.isReserved 209 = false ∧
      claimHeard.decode = .broadcast ∧ (kindOf claimHeard.header.kind).isLending = true ∧ (claimCarried lent).admin.device = .run ∧
      (claimCarried lent).storedPayload ((claimCarried lent).blocksOf 0) .trunk = claimBytes ∧
      payloadWellFormed 64 (some 209) claimBytes = true) ∧
    ((claimCarried lent).isRepeat 209 1 64 = false ∧ (claimRead (claimCarried lent)).pool.recovering = false ∧
      ((claimRead (claimCarried lent)).side .east).state = .joined ∧
      ((claimRead (claimCarried lent)).unit .east).queue.length < 32) ∧
    (((claimRead (crammed .east (claimCarried lent))).side .east).state = .joined ∧
      32 ≤ ((claimRead (crammed .east (claimCarried lent))).unit .east).queue.length) ∧
    ((claimRead (cut .admin (claimCarried lent))).side .east).state ≠ .joined ∧
    (castBefore (claimCarried lent)).isRepeat 209 1 64 = true := by
  refine ⟨?_, ?_, ?_, ?_, ?_⟩ <;> decide +kernel

theorem witness_LendingFrameIsFormedAndPlaced_recovering : recovering.pool.recovering = true := by decide +kernel

/-- Frames that come to entry 0 and entry 1 by number. -/
theorem witness_SwitchedStarFrameJoinsTheOtherQueue_numbered :
    ((ended1 72 5 (.entry 0 none)).decode = .entry 0 none ∧ kindOf (ended1 72 5 (.entry 0 none)).header.kind = .inspectReq) ∧
    kindOf (ended1 1 5 (.entry 0 none)).header.kind ≠ .inspectReq ∧
    ((ended1 20 1 (.entry 1 none)).decode = .entry 1 none ∧ (kindOf (ended1 20 1 (.entry 1 none)).header.kind).isPrintRequest = true) ∧
    (kindOf (ended1 1 5 (.entry 1 none)).header.kind).isPrintRequest = false := by
  refine ⟨?_, ?_, ?_, ?_⟩ <;> decide +kernel

/-- The absent watch ends while a job prints, or is held. -/
def watchEnds (stayed : Bool) (j : Job) : State := spool (fun p => { p with absentWatch := some (T, stayed) }) (ordered j)
def watchedJob (stayed : Bool) (j : Job) : Bool :=
  let a := (watchEnds stayed j).arrive (at_ T)
  calm a && decide (a.admin.device = .run) && decide (a.cfg.printEnable ≠ 0) && a.spool.linesTaken &&
  decide (a.spool.absentWatch = some (T, stayed)) && decide (T ≤ a.now) && decide (a.spool.order = [4]) && decide (a.job 4 = some j)

theorem witness_PrinterLinesAndInitSetTheState_watch :
    (watchedJob true (printingJob 1) = true ∧ (printingJob 1).state = .printing ∧
      printerStateOf true false (watchEnds true (printingJob 1)).pins.printer = .absent) ∧
    (watchedJob false (printingJob 1) = true ∧ printerStateOf false false (watchEnds false (printingJob 1)).pins.printer = .ready) ∧
    (watchedJob true (heldJob (printingJob 1)) = true ∧ (heldJob (printingJob 1)).state = .held) ∧
    watchedJob false (heldJob (printingJob 1)) = true := by
  refine ⟨?_, ?_, ?_, ?_⟩ <;> decide +kernel

/-- A READY job of no data, its frame of three bytes in block 0 or no frame at all, with a separator or none. -/
def dataless (separator : Bool) (c : Option JobChain) : Job := { readyJob with chain := c, separator := separator }
def noBytes (j : Job) : State :=
  let s := oneBlock .internal (fr 132 23 17 1 [7, 0, 0]) ready
  let s := (s.reclassify ⟨0, 0, 1⟩ 4 none).1
  spool (fun p => { p with order := [4] })
    (slot 4 j (pool (fun p => { p with records := p.records.set 0 { p.records[0] with endMark := true } }) s))
def beginsEmpty (j : Job) : Bool :=
  let a := (noBytes j).arrive (at_ T)
  calm a && decide (a.admin.device = .run) && decide (a.spool.order = [4]) && decide (a.job 4 = some j) && decide (j.state = .ready) &&
  decide (a.spool.printer = .ready) && !a.spool.initPending && decide (a.spool.initPulse = none) && decide (a.jobLength j = 0) &&
  decide (a.receivers = [])

theorem witness_HeadJobPrintsItsBytesInOrder_dataless :
    (beginsEmpty (dataless true none) = true ∧ (dataless true none).separator = true) ∧
    (beginsEmpty (dataless false (some chain0)) = true ∧ (dataless false (some chain0)).separator = false) ∧
    beginsEmpty (dataless false none) = true := by
  refine ⟨?_, ?_, ?_⟩ <;> decide +kernel

/-- Port 1 with no reception under way, having left UP so, or a pool recovery having come at a time. -/
def silentPort (st : PortState) (ignore count : Time) (l : Option LeftUp) : State :=
  port 0 (fun q => { q with state := st, rx := none, ignoreBefore := ignore, countBefore := count, leftUp := l }) lent
def began16 (st : PortState) (ignore count : Time) (l : Option LeftUp) : Bool :=
  let a := (silentPort st ignore count l).arrive (at_ T)
  sound a && decide ((a.port 0).rx = none) && decide ((a.port 0).state = st) && decide ((a.port 0).leftUp = l) &&
  decide ((a.port 0).ignoreBefore = ignore) && decide ((a.port 0).countBefore = count) && decide (a.now - 8 * (starHeadBytes nodeB).length = T - 128)

theorem witness_StagedHeaderTakesTheFirstBlock_begins :
    (let a := (silentPort .up (T - 128) (T - 128) none).arrive (at_ T);
      calm a = true ∧ Memory.wf a.memory = true ∧ (a.port 0).rx = none ∧ (a.port 0).state = .up ∧ T - 128 = a.now - 128 ∧
      (a.port 0).leftUp = none ∧ (a.port 0).ignoreBefore ≤ T - 128 ∧ (a.port 0).countBefore ≤ T - 128 ∧
      keepsStar (starHead 281474976710655)
        ((starStaged (starHead 281474976710655) a).decodeStar 0 (starHead 281474976710655)).snd = true ∧
      grants a (.star 0) (0) = true) ∧
    (∀ isolated : Bool, began16 .down 0 0 (some ⟨T - 128, T - 127, isolated⟩) = true ∧
      began16 .disabled 0 0 (some ⟨T - 128, T - 127, isolated⟩) = true ∧
      began16 .isolated (T - 127) 0 (some ⟨T - 128, T - 127, isolated⟩) = true ∧
      began16 .up (T - 127) 0 (some ⟨T - 128, T - 127, isolated⟩) = true) ∧
    (began16 .down 0 0 none = true ∧ began16 .disabled 0 0 (some ⟨T - 127, T, true⟩) = true ∧
      began16 .up (T - 127) 0 (some ⟨T - 129, T - 128, false⟩) = true ∧ began16 .isolated (T - 127) 0 none = true ∧
      began16 .isolated (T - 128) 0 (some ⟨T - 129, T - 128, true⟩) = true ∧ began16 .up (T - 128) (T - 127) none = true) := by
  refine ⟨?_, ?_, ?_⟩ <;> decide +kernel

/-! ### The invariants, met by states with something in them -/

/-- A test that the numbers lent and the directory agree. -/
def agrees (s : State) : Bool :=
  allEntries s (fun i c => match c.phase.holds with
    | none => true
    | some n => match s.dir n with
      | some ⟨.own _ _ j, _, _, _, _⟩ => decide (j = i)
      | _ => false) &&
  (List.range 256).all (fun k => match s.dir (BitVec.ofNat 8 k) with
    | some ⟨.own _ _ i, _, _, _, _⟩ => (match s.entry i with
      | some c => decide (c.phase.holds = some (BitVec.ofNat 8 k))
      | none => false)
    | _ => true) &&
  allEntries s (fun i c => allEntries s (fun j d => decide (i = j) || c.phase.number.isNone || decide (c.phase.number ≠ d.phase.number))) &&
  decide s.lend.claims.Nodup &&
  s.lend.claims.all (fun i => match s.entry i with
    | some c => (match c.phase with
      | .unbound => true
      | .conflict _ => true
      | _ => false)
    | none => false) &&
  (decide (s.admin.device ≠ .loading) || allEntries s (fun _ c => decide (c.phase = .unbound)))

theorem agrees_iff (s : State) (h : agrees s = true) : s.NumbersAgree := by
  simp only [agrees, Bool.and_eq_true] at h
  obtain ⟨⟨⟨⟨⟨h1, h2⟩, h3⟩, h4⟩, h5⟩, h6⟩ := h
  constructor
  · intro i c n e k
    have := allEntries_iff s _ h1 i c e
    simp only [k] at this
    split at this
    · next loc ident j _ _ _ _ r => exact ⟨_, loc, ident, r, by simpa using this⟩
    · cases this
  · intro n r loc ident i e k
    have := List.all_eq_true.mp h2 n.toNat (List.mem_range.mpr n.isLt)
    obtain ⟨hd, x1, x2, x3, x4⟩ := r
    simp only at k
    subst k
    simp only [BitVec.ofNat_toNat, BitVec.setWidth_eq, e] at this
    split at this
    · next c r => exact ⟨c, r, by simpa using this⟩
    · cases this
  · intro i j c d n e f k l
    have := allEntries_iff s _ (allEntries_iff s _ h3 i c e) j d f
    simpa [k, l] using this
  · refine ⟨by simpa using h4, fun i m => ?_⟩
    have := List.all_eq_true.mp h5 i m
    split at this
    · next c r =>
      refine ⟨c, r, ?_⟩
      split at this
      · next q => exact .inl q
      · next n q => exact .inr ⟨n, q⟩
      · cases this
    · cases this
  · intro l i c e
    simp only [l] at h6
    exact of_decide_eq_true (allEntries_iff s _ (by simpa using h6) i c e)

theorem lent_bounded : lent.Bounded := by
  refine ⟨?_, ⟨?_, ?_⟩, ?_, ?_, ?_, ?_, ?_, ?_, ?_, ?_, ?_, ?_⟩
  · intro x; cases x <;> decide +kernel
  · intro x; cases x <;> decide +kernel
  all_goals decide +kernel

/-- `lent` with nothing left to claim. -/
def allLent : State := lend (fun l => { l with claims := [] }) lent

theorem allLent_agrees : allLent.NumbersAgree := agrees_iff _ (by decide +kernel)

/-- The front command of a state with something in every store runs to a next state. -/
theorem witness_EveryStepKeepsMemoryCanonical :
    Memory.wf (waiting (.carrierOn (at_ T) .west) (oneBlock (.side .west) [1, 2, 3] lent)).memory = true ∧
    ∃ t, step (waiting (.carrierOn (at_ T) .west) (oneBlock (.side .west) [1, 2, 3] lent)) = .next t := ⟨by decide +kernel, _, rfl⟩

/-- A waiting command bears on no bound. -/
theorem lent_waiting_bounded : (waiting (.carrierOn (at_ T) .west) lent).Bounded :=
  have ⟨scores, queues, l⟩ := lent_bounded
  ⟨scores, queues, l.receipts, l.transmissions, l.broadcasts, l.nodes, l.retired, l.waiting, l.avoid, l.watches, l.claims, l.order⟩

theorem witness_EveryStepKeepsTheBounds :
    (waiting (.carrierOn (at_ T) .west) lent).Bounded ∧ ∃ t, step (waiting (.carrierOn (at_ T) .west) lent) = .next t :=
  ⟨lent_waiting_bounded, _, rfl⟩

theorem witness_EveryStepKeepsTheNumbersInAgreement :
    (Instr.carrierOn (at_ T) .west).moment.upsets = [] ∧ allLent.check.bad = [] ∧ allLent.NumbersAgree ∧
    ∃ t, exec (.carrierOn (at_ T) .west) allLent = .next t := ⟨rfl, rfl, allLent_agrees, _, rfl⟩

end Sys2Proof.Tests
end

section
/-! PROOFS. The classes of bursts and star frames (R5, R6), and how the frames that the junction forms and cuts are received. -/

namespace Sys2Proof.Machine

/-! ### Words and their bytes -/

/-- Two adjoining runs of bits, put together, are the run that spans both. -/
theorem append_extract {w : Nat} (v : BitVec w) (start high low : Nat) :
    v.extractLsb' (start + low) high ++ v.extractLsb' start low = v.extractLsb' start (high + low) :=
  BitVec.extractLsb'_append_extractLsb'_eq_extractLsb' rfl

/-- A 16-bit word is read back from its two bytes. -/
theorem word16_bytes (v : BitVec 16) : word16 (v.extractLsb' 8 8) (v.extractLsb' 0 8) = v :=
  (append_extract v 0 8 8).trans BitVec.extractLsb'_eq_self

/-- A 32-bit word is read back from its four bytes. -/
theorem append_bytes32 (v : BitVec 32) :
    v.extractLsb' 24 8 ++ v.extractLsb' 16 8 ++ v.extractLsb' 8 8 ++ v.extractLsb' 0 8 = v := by
  rw [append_extract v 16 8 8, append_extract v 8 16 8, append_extract v 0 24 8]
  exact BitVec.extractLsb'_eq_self

/-- An identifier is read back from its six bytes (R7). -/
theorem identOf_bytes (i : Ident) :
    identOf (i.extractLsb' 40 8) (i.extractLsb' 32 8) (i.extractLsb' 24 8) (i.extractLsb' 16 8) (i.extractLsb' 8 8)
      (i.extractLsb' 0 8) = i := by
  rw [identOf, append_extract i 32 8 8, append_extract i 24 16 8, append_extract i 16 24 8, append_extract i 8 32 8,
    append_extract i 0 40 8]
  exact BitVec.extractLsb'_eq_self

/-! ### Checks (R4, R6) -/

@[simp] theorem length_checkBytes16 (c : BitVec 16) : (checkBytes16 c).length = 2 := rfl

@[simp] theorem length_checkBytes32 (c : BitVec 32) : (checkBytes32 c).length = 4 := rfl

theorem checkBytes16_injective : Function.Injective checkBytes16 := by
  intro c d h
  simp only [checkBytes16, List.cons.injEq, and_true] at h
  obtain ⟨high, low⟩ := h
  rw [← word16_bytes c, ← word16_bytes d, high, low]

theorem checkBytes32_injective : Function.Injective checkBytes32 := by
  intro c d h
  simp only [checkBytes32, List.cons.injEq, and_true] at h
  obtain ⟨b3, b2, b1, b0⟩ := h
  rw [← append_bytes32 c, ← append_bytes32 d, b3, b2, b1, b0]

/-- No word is its own inverse, which is why an inverted check is a wrong one. -/
theorem not_ne_self {w : Nat} (hw : 0 < w) (c : BitVec w) : ~~~c ≠ c := by
  intro h
  have bit := congrArg (fun v => v.getLsbD 0) h
  simp [hw] at bit

/-- The last two bytes are the check of those before them. -/
theorem check_of_withTrunkCheck (body : List Byte) :
    (withTrunkCheck body).drop ((withTrunkCheck body).length - 2) =
      checkBytes16 (trunkCheck ((withTrunkCheck body).take ((withTrunkCheck body).length - 2))) := by
  simp [withTrunkCheck]

/-- The last four bytes are the check of those before them. -/
theorem check_of_withStarCheck (body : List Byte) :
    (withStarCheck body).drop ((withStarCheck body).length - 4) =
      checkBytes32 (starCheck ((withStarCheck body).take ((withStarCheck body).length - 4))) := by
  simp [withStarCheck]

/-! ### Trunk bursts (R5) -/

theorem classifyTrunk_of_short {bytes : List Byte} (short : bytes.length < 16) : classifyTrunk bytes = .runt := by
  simp [classifyTrunk, short]

theorem classifyTrunk_of_long {bytes : List Byte} (long : 520 < bytes.length) : classifyTrunk bytes = .overlong := by
  simp [classifyTrunk, long, show ¬ bytes.length < 16 by omega]

theorem classifyTrunk_of_wrong_check {bytes : List Byte} (lo : 16 ≤ bytes.length) (hi : bytes.length ≤ 520)
    (wrong : bytes.drop (bytes.length - 2) ≠ checkBytes16 (trunkCheck (bytes.take (bytes.length - 2)))) :
    classifyTrunk bytes = .checkError := by
  simp [classifyTrunk, wrong, Nat.not_lt.mpr lo, Nat.not_lt.mpr hi]

theorem classifyTrunk_of_right_check {bytes : List Byte} {h : TrunkHeader} (lo : 16 ≤ bytes.length)
    (hi : bytes.length ≤ 520)
    (right : bytes.drop (bytes.length - 2) = checkBytes16 (trunkCheck (bytes.take (bytes.length - 2))))
    (header : trunkHeaderOf bytes = some h) :
    classifyTrunk bytes =
      if h.len.toNat ≤ 512 ∧ bytes.length = trunkFrameLength h.len.toNat then .good else .overlong := by
  simp [classifyTrunk, right, header, Nat.not_lt.mpr lo, Nat.not_lt.mpr hi]

@[simp] theorem length_trunkBody (h : TrunkHeader) (payload : List Byte) :
    (trunkBody h payload).length = max (6 + payload.length) 14 := by
  simp [trunkBody]; omega

@[simp] theorem length_trunkFrame (h : TrunkHeader) (payload : List Byte) :
    (trunkFrame h payload).length = max (6 + payload.length) 14 + 2 := by
  simp [trunkFrame, withTrunkCheck]

theorem trunkHeaderOf_trunkFrame (h : TrunkHeader) (payload : List Byte) :
    trunkHeaderOf (trunkFrame h payload) = some h := by
  simp [trunkFrame, withTrunkCheck, trunkBody, trunkHeaderOf, word16_bytes]

/-- The payload stands behind the six bytes of the header (R1). -/
theorem payload_of_trunkFrame (h : TrunkHeader) (payload : List Byte) :
    ((trunkFrame h payload).drop 6).take payload.length = payload := by
  simp [trunkFrame, withTrunkCheck, trunkBody]

/-- A formed frame passes all four tests. -/
theorem classifyTrunk_trunkFrame {h : TrunkHeader} {payload : List Byte} (fits : payload.length ≤ 512)
    (len : h.len = BitVec.ofNat 16 payload.length) : classifyTrunk (trunkFrame h payload) = .good := by
  have borne : h.len.toNat = payload.length := by simp [len]; omega
  rw [classifyTrunk_of_right_check (bytes := trunkFrame h payload) (by rw [length_trunkFrame]; omega)
    (by rw [length_trunkFrame]; omega) (check_of_withTrunkCheck _)
    (trunkHeaderOf_trunkFrame h payload), borne]
  simp [fits, trunkFrameLength]

/-- A frame cut short is too short, or its inverted check is not the check of the bytes sent (R4, R27). -/
theorem classifyTrunk_cutTrunk {sent : List Byte} (fits : sent.length ≤ 518) :
    classifyTrunk (cutTrunk sent) = if sent.length < 14 then .runt else .checkError := by
  have length : (cutTrunk sent).length = sent.length + 2 := by simp [cutTrunk]
  split
  case isTrue short => exact classifyTrunk_of_short (by omega)
  case isFalse long =>
    have dropped : (cutTrunk sent).drop ((cutTrunk sent).length - 2) = checkBytes16 (~~~(trunkCheck sent)) := by
      simp [cutTrunk]
    have taken : (cutTrunk sent).take ((cutTrunk sent).length - 2) = sent := by simp [cutTrunk]
    refine classifyTrunk_of_wrong_check (by omega) (by omega) ?_
    rw [dropped, taken]
    exact checkBytes16_injective.ne (not_ne_self (by decide) _)

/-! ### Star frames (R6) -/

theorem classifyStar_of_short {bytes : List Byte} (short : bytes.length < 24) : classifyStar bytes = .runt := by
  simp [classifyStar, short]

theorem classifyStar_of_long {bytes : List Byte} (long : 1520 < bytes.length) : classifyStar bytes = .overlong := by
  simp [classifyStar, long, show ¬ bytes.length < 24 by omega]

theorem classifyStar_of_wrong_check {bytes : List Byte} (lo : 24 ≤ bytes.length) (hi : bytes.length ≤ 1520)
    (wrong : bytes.drop (bytes.length - 4) ≠ checkBytes32 (starCheck (bytes.take (bytes.length - 4)))) :
    classifyStar bytes = .checkError := by
  simp [classifyStar, wrong, Nat.not_lt.mpr lo, Nat.not_lt.mpr hi]

theorem classifyStar_of_right_check {bytes : List Byte} {h : StarHeader} (lo : 24 ≤ bytes.length)
    (hi : bytes.length ≤ 1520)
    (right : bytes.drop (bytes.length - 4) = checkBytes32 (starCheck (bytes.take (bytes.length - 4))))
    (header : starHeaderOf bytes = some h) :
    classifyStar bytes =
      if h.len.toNat ≤ 1500 ∧ bytes.length = starFrameLength h.len.toNat then .good else .overlong := by
  simp [classifyStar, right, header, Nat.not_lt.mpr lo, Nat.not_lt.mpr hi]

@[simp] theorem length_bytesOfIdent (i : Ident) : (bytesOfIdent i).length = 6 := rfl

@[simp] theorem length_starBody (h : StarHeader) (payload : List Byte) :
    (starBody h payload).length = max (16 + payload.length) 20 := by
  simp [starBody]; omega

@[simp] theorem length_starFrame (h : StarHeader) (payload : List Byte) :
    (starFrame h payload).length = max (16 + payload.length) 20 + 4 := by
  simp [starFrame, withStarCheck]

theorem starHeaderOf_starFrame (h : StarHeader) (payload : List Byte) :
    starHeaderOf (starFrame h payload) = some h := by
  simp [starFrame, withStarCheck, starBody, bytesOfIdent, starHeaderOf, identOf_bytes, word16_bytes]

/-- The payload stands behind the sixteen bytes of the header (R6). -/
theorem payload_of_starFrame (h : StarHeader) (payload : List Byte) :
    ((starFrame h payload).drop 16).take payload.length = payload := by
  simp [starFrame, withStarCheck, starBody, bytesOfIdent]

/-- A formed star frame passes all the tests. -/
theorem classifyStar_starFrame {h : StarHeader} {payload : List Byte} (fits : payload.length ≤ 1500)
    (len : h.len = BitVec.ofNat 16 payload.length) : classifyStar (starFrame h payload) = .good := by
  have borne : h.len.toNat = payload.length := by simp [len]; omega
  rw [classifyStar_of_right_check (bytes := starFrame h payload) (by rw [length_starFrame]; omega)
    (by rw [length_starFrame]; omega) (check_of_withStarCheck _)
    (starHeaderOf_starFrame h payload), borne]
  simp [fits, starFrameLength]

/-- A star frame cut short is too short, or its inverted check is not the check of the bytes sent (R6, R52). -/
theorem classifyStar_cutStar {sent : List Byte} (fits : sent.length ≤ 1516) :
    classifyStar (cutStar sent) = if sent.length < 20 then .runt else .checkError := by
  have length : (cutStar sent).length = sent.length + 4 := by simp [cutStar]
  split
  case isTrue short => exact classifyStar_of_short (by omega)
  case isFalse long =>
    have dropped : (cutStar sent).drop ((cutStar sent).length - 4) = checkBytes32 (~~~(starCheck sent)) := by
      simp [cutStar]
    have taken : (cutStar sent).take ((cutStar sent).length - 4) = sent := by simp [cutStar]
    refine classifyStar_of_wrong_check (by omega) (by omega) ?_
    rw [dropped, taken]
    exact checkBytes32_injective.ne (not_ne_self (by decide) _)

/-- Settles O21, by one lemma for each test a burst can fail first, and by the formed frame's check being that of its body. -/
theorem burstClassesAndFormedFramesAgree : Obligations.BurstClassesAndFormedFramesAgree := by
  refine ⟨fun bytes => ?_, ⟨?_, ?_⟩, fun bytes => ?_, ?_, ?_⟩
  · exact ⟨classifyTrunk_of_short, classifyTrunk_of_long, classifyTrunk_of_wrong_check,
      fun h => classifyTrunk_of_right_check⟩
  · exact fun h payload fits len =>
      ⟨classifyTrunk_trunkFrame fits len, trunkHeaderOf_trunkFrame h payload, payload_of_trunkFrame h payload⟩
  · exact fun sent => classifyTrunk_cutTrunk
  · exact ⟨classifyStar_of_short, classifyStar_of_long, classifyStar_of_wrong_check,
      fun h => classifyStar_of_right_check⟩
  · exact fun h payload fits len =>
      ⟨classifyStar_starFrame fits len, starHeaderOf_starFrame h payload, payload_of_starFrame h payload⟩
  · exact fun sent => classifyStar_cutStar

end Sys2Proof.Machine
end

section
/-! PROOFS. The backoff wait of a trunk record that has collided (R21, R22): its window, its formula, and the number it is worked out
with. -/

namespace Sys2Proof.Machine

/-! ### Changes of one Trunk Access Unit -/

/-- Two changes of one unit are one change. -/
theorem modUnit_modUnit (s : State) (x : Side) (f g : TrunkUnit → TrunkUnit) :
    (s.modUnit x f).modUnit x g = s.modUnit x (fun u => g (f u)) := by
  cases x <;> rfl

/-- A change of the head record changes the queue's first place. -/
theorem queue_modHead_cons {s : State} {x : Side} {r : TrunkRecord} {rest : List TrunkRecord} (h : (s.unit x).queue = r :: rest)
    (f : TrunkRecord → TrunkRecord) : ((s.modHead x f).unit x).queue = f r :: rest := by
  simp [State.modHead, h]

/-- Counting a collision changes the side's unit alone: C, Co and the collisions total go up, and for a late one Lc and its total
(R21, R22). -/
theorem countCollision_eq_modUnit (s : State) (x : Side) (late : Bool) :
    s.countCollision x late = s.modUnit x (fun u =>
      { u with
        c := u.c + 1
        window := { u.window with co := bump u.window.co, lc := if late then bump u.window.lc else u.window.lc }
        totals :=
          let t := u.totals.raise SideTotal.collisions.idx
          if late then t.raise SideTotal.lateCollisions.idx else t }) := by
  cases late <;> simp [State.countCollision, State.modWindow, State.raiseSide, modUnit_modUnit]

/-! ### The window and the wait (R22) -/

theorem backoffWindow_of_four_le {n : Nat} (h : 4 ≤ n) : backoffWindow n = 32 := by
  have capped : min (n + 1) 5 = 5 := by omega
  simp [backoffWindow, capped]

theorem backoffSlots_lt (S n C : Nat) : backoffSlots S n C < backoffWindow n :=
  Nat.mod_lt _ (Nat.two_pow_pos _)

theorem beginBackoff_of_backoffDue {r : TrunkRecord} {b : Nat} (h : r.phase = .backoffDue b) (now : Time) :
    r.beginBackoff now = { r with phase := if b = 0 then .due else .backoff (now + b * Config.slot) } := by
  simp [TrunkRecord.beginBackoff, h]

/-! ### The number S (R22) -/

/-- A phase that is not BOUND gives no number. -/
theorem boundNumber_eq_none_iff (p : AliasPhase) : p.boundNumber = none ↔ ∀ m, p ≠ .bound m := by
  cases p <;> simp [AliasPhase.boundNumber]

theorem backoffNumber_of_bound {s : State} {c : AliasEntry} {m : Byte} (h : s.entry 0 = some c) (hb : c.phase = .bound m) :
    s.backoffNumber = m.toNat := by
  simp [State.backoffNumber, State.boundNumber, h, hb, AliasPhase.boundNumber]

theorem backoffNumber_of_not_bound {s : State} (h : ∀ c m, s.entry 0 = some c → c.phase ≠ .bound m) : s.backoffNumber = 0 := by
  have unbound : s.boundNumber 0 = none := by
    rw [State.boundNumber, Option.bind_eq_none_iff]
    exact fun c hc => (boundNumber_eq_none_iff _).mpr (h c · hc)
  simp [State.backoffNumber, unbound]

/-- With an empty place for the junction's entry there is no number. -/
theorem backoffNumber_of_no_entry {s : State} (h : s.entry 0 = none) : s.backoffNumber = 0 :=
  backoffNumber_of_not_bound (fun c m hc => by simp [h] at hc)

@[simp] theorem enterRelayOnly_device (s : State) : s.enterRelayOnly.admin.device = .relayOnly := rfl

/-- RELAY-ONLY begins with no number lent and no entry to seek one (R178). -/
@[simp] theorem enterRelayOnly_entry (s : State) (i : EntryNo) : s.enterRelayOnly.entry i = none := by
  simp [State.enterRelayOnly, State.entry]

/-! ### The record of an attempt that collides (R21) -/

/-- In a settled state no side is PARTITIONING. -/
theorem partitioning_of_settled {s : State} (h : s.Settled) (x : Side) : s.partitioning x = false := by
  cases x with
  | west => exact decide_eq_false h.west
  | east => exact decide_eq_false h.east

/-- Below the collision limit the record waits for its backoff, worked out with C after its increment and with S as it stands. -/
theorem queue_attemptCollides {s : State} (calm : s.Calm) {x : Side} {r : TrunkRecord} {rest : List TrunkRecord} (began : Time)
    (queue : (s.unit x).queue = r :: rest) (below : r.collisions + 1 < Config.collisionLimit) :
    ((s.attemptCollides x r began).unit x).queue =
      { r with
        collisions := r.collisions + 1
        phase := .backoffDue (backoffSlots s.backoffNumber (r.collisions + 1) ((s.unit x).c + 1).toNat) } :: rest := by
  have whole : ∀ g, (s.modUnit x g).partitioning x = false := fun _ => partitioning_of_settled calm.toSettled x
  have sound : ∀ g, (s.modUnit x g).checkEntry 0 = s.modUnit x g := fun g => checkEntry_of_sound (s := s.modUnit x g) calm.sound 0
  have number : ∀ g, (s.modUnit x g).backoffNumber = s.backoffNumber := fun _ => rfl
  simp only [State.attemptCollides, countCollision_eq_modUnit, modUnit_modUnit, whole, sound, number, Bool.false_eq_true, if_false,
    Nat.not_le.mpr below]
  rw [queue_modHead_cons (r := r) (rest := rest) (by simpa [TrunkUnit.toJam] using queue)]
  simp [TrunkUnit.toJam]

/-- Settles O29: the window is a power of two, a remainder lies below it, S is read off the junction's own entry, and the record of a
collided attempt takes the wait so worked out. -/
theorem backoffWaitIsTheFormula : Obligations.BackoffWaitIsTheFormula := by
  refine ⟨fun _ => rfl, rfl, rfl, rfl, fun _ => backoffWindow_of_four_le, fun S n C => ⟨rfl, backoffSlots_lt S n C⟩, ?number,
    ?unbound, ?entersRelayOnly, ?relayOnly, ?collides, ?begins⟩
  case number => exact fun s m c => backoffNumber_of_bound
  case unbound => exact fun s => backoffNumber_of_not_bound
  case entersRelayOnly => exact fun s => ⟨enterRelayOnly_device s, backoffNumber_of_no_entry (enterRelayOnly_entry s 0)⟩
  case relayOnly => exact fun s _ empty => backoffNumber_of_no_entry (empty 0)
  case collides =>
    intro s x r rest began calm queue below
    exact queue_attemptCollides calm began queue (Nat.succ_lt_succ below)
  case begins => exact fun r now b due => beginBackoff_of_backoffDue due now

end Sys2Proof.Machine
end

section
/-! PROOFS. The records of the Station Directory: what a frame learned from does to its source's record, how its moves are counted, and
how records age and quarantines end (R71, R73 to R76). -/

namespace Sys2Proof.Machine

/-! ### Writes to the directory -/

/-- A record written and a counter raised change the directory alone. -/
theorem raiseDir_setDir_of_sound {s : State} (sound : s.check.bad = []) (n : Byte) (q : Option DirRecord) (k : DirCount) :
    (s.setDir n q).raiseDir k =
      { s with directory := ⟨s.directory.records.set n.toNat q n.isLt, s.directory.counters.raise k.idx⟩ } := by
  rw [setDir_of_sound sound]
  rfl

/-- A change of the directory alone leaves a settled state settled. -/
theorem State.Settled.withDirectory {s : State} (settled : s.Settled) (d : Directory) :
    ({ s with directory := d } : State).Settled :=
  ⟨settled.west, settled.east, settled.noNotice⟩

@[simp] theorem quarantined_eq_false_iff (r : DirRecord) : r.quarantined = false ↔ r.quarantine = none := by
  simp [DirRecord.quarantined]

/-! ### Counting a move (R73) -/

/-- No window is open for another move: there is none, or it began 10 s or more ago. -/
def DirRecord.WindowOver (r : DirRecord) (now : Time) : Prop :=
  r.windowStart = none ∨ ∃ w, r.windowStart = some w ∧ w + 10 * Config.sec ≤ now

theorem countMove_of_windowOver {now : Time} {r : DirRecord} (ended : r.WindowOver now) (cfg : Settings) :
    countMove cfg now r = { r with moves := 1, windowStart := some now } := by
  rcases ended with absent | ⟨w, begun, past⟩
  · simp [countMove, absent, Config.quarantineMoves]
  · simp [countMove, begun, Config.moveWindow, past, Config.quarantineMoves]

/-- Within a window the count goes up by one, and at five the quarantine begins. -/
theorem countMove_of_windowOpen {now : Time} {r : DirRecord} (within : ¬ r.WindowOver now) (below : r.moves < 255)
    (cfg : Settings) :
    countMove cfg now r =
      { r with
        moves := r.moves + 1
        quarantine := if r.moves + 1 = 5 then some (now + cfg.quarantineTime * Config.sec) else r.quarantine } := by
  cases begun : r.windowStart with
  | none => exact absurd (Or.inl begun) within
  | some w =>
    have early : ¬ w + Config.moveWindow ≤ now := fun past => within (Or.inr ⟨w, begun, past⟩)
    simp [countMove, begun, early, satUp, below, Config.quarantineMoves]

/-- A counted move changes the directory alone: the record, the moves, and the quarantines when it begins one (R73, R85). -/
theorem setMoved_of_sound {s : State} (sound : s.check.bad = []) (n : Byte) (r : DirRecord) :
    s.setMoved n r =
      { s with directory :=
        { records := s.directory.records.set n.toNat (some (countMove s.cfg s.now r)) n.isLt
          counters :=
            if (countMove s.cfg s.now r).quarantine = none then s.directory.counters.raise DirCount.moves.idx
            else (s.directory.counters.raise DirCount.moves.idx).raise DirCount.quarantines.idx } } := by
  simp only [State.setMoved, raiseDir_setDir_of_sound sound]
  cases begins : (countMove s.cfg s.now r).quarantine <;> simp [DirRecord.quarantined, begins, State.raiseDir]

/-! ### Learning (R71) -/

/-- The holder of a record heard on a side, once it has moved there. -/
def Holder.movedTo (h : Holder) (x : Side) : Holder :=
  match h with
  | .remote _ i p => .remote x i p
  | _ => .legacy x

theorem learnRecord_of_absent {s : State} {n : Byte} (absent : s.dir n = none) (x : Side) :
    s.learnRecord x n = (s.setDir n (some (freshRecord (.legacy x) s.now))).raiseDir .learned := by
  simp [State.learnRecord, absent]

/-- A record without a side is OWN-ALIAS, and nothing is learned about it. -/
theorem learnRecord_of_own {s : State} {n : Byte} {r : DirRecord} (present : s.dir n = some r) (own : r.side = none) (x : Side) :
    s.learnRecord x n = s := by
  cases kind : r.holder with
  | own l i k => simp [State.learnRecord, present, kind]
  | legacy y => simp [DirRecord.side, kind] at own
  | remote y i p => simp [DirRecord.side, kind] at own

/-- A record at a side is heard again there, or while quarantined at either side, and otherwise moves. -/
theorem learnRecord_of_side {s : State} {n : Byte} {r : DirRecord} {y : Side} (present : s.dir n = some r)
    (located : r.side = some y) (x : Side) :
    s.learnRecord x n =
      if y = x ∨ r.quarantine ≠ none then s.setDir n (some { r with lastHeard := s.now })
      else s.setMoved n { r with lastHeard := s.now, holder := r.holder.movedTo x } := by
  have quarantined : r.quarantined = true ↔ r.quarantine ≠ none := Option.isSome_iff_ne_none
  cases kind : r.holder with
  | legacy z =>
    obtain rfl : z = y := by simpa [DirRecord.side, kind] using located
    simp [State.learnRecord, present, kind, quarantined, Holder.movedTo]
  | remote z i p =>
    obtain rfl : z = y := by simpa [DirRecord.side, kind] using located
    simp [State.learnRecord, present, kind, quarantined, Holder.movedTo]
  | own l i k => simp [DirRecord.side, kind] at located

/-- Settles O38, by the row of R71's table that the record is in, and by whether a window is open for its moves. -/
theorem learningCountsMovesInWindows : Obligations.LearningCountsMovesInWindows := by
  refine ⟨fun s x n sound => ⟨fun absent => ?learned, fun r present heard => ?heard,
    fun r present own => learnRecord_of_own present own x, fun r y m present located elsewhere free moved => ?moved⟩,
    fun cfg now r free => ⟨(countMove_of_windowOver · cfg), fun within below => ?counted, fun within four => ?fifth⟩⟩
  case learned =>
    rw [learnRecord_of_absent absent, raiseDir_setDir_of_sound sound]
    rfl
  case heard =>
    obtain ⟨y, located⟩ : ∃ y, r.side = some y :=
      heard.elim (fun here => ⟨x, here⟩) (fun there => Option.ne_none_iff_exists'.mp there.1)
    have stays : y = x ∨ r.quarantine ≠ none := heard.imp (fun here => by simpa [located] using here) And.right
    rw [learnRecord_of_side present located, if_pos stays, setDir_of_sound sound]
  case moved =>
    have moves : ¬ (y = x ∨ r.quarantine ≠ none) := by simp [elsewhere, free]
    subst moved
    rw [learnRecord_of_side present located, if_neg moves, setMoved_of_sound sound]
    rfl
  case counted => simp [countMove_of_windowOpen within (by omega), free, show r.moves + 1 ≠ 5 by omega]
  case fifth => simp [countMove_of_windowOpen within (by omega), four]

/-! ### Age and quarantine (R74 to R76) -/

theorem exec_directoryAgeExpiry (e : Moment) (n : Byte) (s : State) :
    exec (.directoryAgeExpiry e n) s = execDirectoryAgeExpiry e n s := rfl

theorem exec_quarantineExpiry (e : Moment) (n : Byte) (s : State) :
    exec (.quarantineExpiry e n) s = execQuarantineExpiry e n s := rfl

@[simp] theorem started_eq_true_iff (s : State) : s.started = true ↔ s.admin.device ≠ .loading := by
  simp [State.started, State.loading]

/-- In a started unit an event whose effect leaves a settled state answers with it. -/
theorem event_of_started {s t : State} {e : Moment} {body : State → State} (started : (s.arrive e).admin.device ≠ .loading)
    (effect : body (s.arrive e) = t) (settled : t.Settled) :
    s.event e (fun s => if s.started then body s else s) = .next t := by
  subst effect
  have gate : (s.arrive e).started = true := (started_eq_true_iff _).mpr started
  rw [event_of_settled (by simpa [gate] using settled), if_pos gate]

@[simp] theorem aged_eq_true_iff (r : DirRecord) (cfg : Settings) (now : Time) :
    r.aged cfg now = true ↔ r.lastHeard + cfg.directoryAge * Config.sec ≤ now := decide_eq_true_iff

theorem ageRecord_of_sound {s : State} {n : Byte} {r : DirRecord} (sound : s.check.bad = []) (present : s.dir n = some r) :
    s.ageRecord n =
      if r.isLegacy = true ∧ r.quarantine = none ∧ r.lastHeard + s.cfg.directoryAge * Config.sec ≤ s.now
      then (s.setDir n none).raiseDir .aged else s := by
  simp [State.ageRecord, checkDir_of_sound sound, present, and_assoc]

/-- No quarantine of the record has expired: the quarantine's end changes nothing. -/
theorem endQuarantine_of_unexpired {s : State} {n : Byte} {r : DirRecord} (sound : s.check.bad = []) (present : s.dir n = some r)
    (unexpired : ∀ t, r.quarantine = some t → s.now < t) : s.endQuarantine n = s := by
  have standing : expired s.now r.quarantine = false := by
    cases ends : r.quarantine with
    | none => rfl
    | some t => exact decide_eq_false (Nat.not_le.mpr (unexpired t ends))
  simp [State.endQuarantine, checkDir_of_sound sound, present, standing]

theorem endQuarantine_of_expired {s : State} {n : Byte} {r : DirRecord} {t : Time} (sound : s.check.bad = [])
    (present : s.dir n = some r) (quarantined : r.quarantine = some t) (past : t ≤ s.now) :
    s.endQuarantine n =
      if r.isLegacy = true ∧ r.lastHeard + s.cfg.directoryAge * Config.sec ≤ s.now then (s.setDir n none).raiseDir .aged
      else s.setDir n (some { r with quarantine := none, windowStart := none, moves := 0 }) := by
  have ended : expired s.now r.quarantine = true := by rw [quarantined]; exact decide_eq_true past
  simp [State.endQuarantine, checkDir_of_sound sound, present, ended]

/-- Settles O39: each of the two events makes at most one write to the directory, which leaves the unit settled. -/
theorem ageAndQuarantineExpire : Obligations.AgeAndQuarantineExpire := by
  intro e n r s a put removed old calm started present
  have removal : (a.setDir n none).raiseDir .aged = removed := raiseDir_setDir_of_sound calm.sound n none .aged
  have write := setDir_of_sound calm.sound n (some { r with quarantine := none, windowStart := none, moves := 0 })
  have settled := calm.toSettled.withDirectory
  rw [exec_directoryAgeExpiry, exec_quarantineExpiry]
  refine ⟨fun legacy free aged => event_of_started started ?removedByAge (settled _),
    fun kept => event_of_started started ?keptByAge calm.toSettled,
    fun t quarantined past => ⟨fun legacy aged => event_of_started started ?removedAtEnd (settled _),
      fun kept => event_of_started started ?freed (settled _)⟩,
    fun unexpired => event_of_started started (endQuarantine_of_unexpired calm.sound present unexpired) calm.toSettled⟩
  case removedByAge => rw [ageRecord_of_sound calm.sound present, if_pos ⟨legacy, free, aged⟩]; exact removal
  case keptByAge =>
    rw [ageRecord_of_sound calm.sound present, if_neg]
    rintro ⟨legacy, free, aged⟩
    rcases kept with other | quarantined | young
    · simp [legacy] at other
    · exact quarantined free
    · exact young aged
  case removedAtEnd =>
    rw [endQuarantine_of_expired calm.sound present quarantined past, if_pos ⟨legacy, aged⟩]; exact removal
  case freed =>
    rw [endQuarantine_of_expired calm.sound present quarantined past, if_neg]
    · exact write
    · rintro ⟨legacy, aged⟩
      rcases kept with other | young
      · simp [legacy] at other
      · exact young aged

end Sys2Proof.Machine
end
